-- ==== Sys2Proof/Word.lean ====
section
/-! DEFINITION. The data formats of MIX (spec/00_scope.md R4 to R8, spec/10_state.md R20 to R24): signs, words of a sign and
five bytes, the two-byte shorts of the index registers, and the names of the registers. A byte is a number below the byte size
`b`, not a string of bits (R4), so it is a `Nat`; that it lies below `b` is part of the machine's invariant. -/

namespace Sys2Proof

/-- The sign position of a word: "only two possible values, + and -" (R6). -/
inductive Sign where
  | plus
  | minus
  deriving DecidableEq, Repr, Inhabited

/-- `neg(s)`, the other sign (R6, 00_scope.md section 6). -/
def Sign.neg : Sign → Sign
  | .plus => .minus
  | .minus => .plus

/-- The integer of magnitude `m` taken with the sign: `+m` or `-m` (R8). Both signs of zero give 0. -/
def Sign.apply : Sign → Nat → Int
  | .plus, m => (m : Int)
  | .minus, m => -(m : Int)

/-- `sgn(n)`: the sign of an integer, used for `n ≠ 0` only (00_scope.md section 6). -/
def Sign.ofInt (n : Int) : Sign :=
  if n < 0 then .minus else .plus

/-- A word: a sign and five bytes, byte 1 the most significant (R6, R7). -/
structure Word where
  sign : Sign
  b1 : Nat
  b2 : Nat
  b3 : Nat
  b4 : Nat
  b5 : Nat
  deriving DecidableEq, Repr, Inhabited

/-- `+0` (00_scope.md section 6). -/
def Word.plusZero : Word := ⟨.plus, 0, 0, 0, 0, 0⟩

/-- The content of an index register: a sign and the bytes 4 and 5 of a word (10_state.md R23). -/
structure Short where
  sign : Sign
  b4 : Nat
  b5 : Nat
  deriving DecidableEq, Repr, Inhabited

/-- `+0` of an index register. -/
def Short.plusZero : Short := ⟨.plus, 0, 0⟩

/-- The six index registers (10_state.md R20, R23). -/
inductive Idx where
  | i1
  | i2
  | i3
  | i4
  | i5
  | i6
  deriving DecidableEq, Repr

/-- The registers that loads, stores, address transfers, comparisons and register jumps name: A, X and the index registers. -/
inductive Reg where
  | a
  | x
  | i (n : Idx)
  deriving DecidableEq, Repr

end Sys2Proof
end

