-- ==== Sys2Proof/Syntax.lean ====
section
/-! DEFINITION. The syntax of MIX instructions: the address part of an instruction word (spec/30_encoding.md R81 to R83) and one
constructor of `Instr` for each row of spec/opcode_table.json. An instruction keeps the byte values of its word, since which
number two address bytes denote depends on the byte size (R82). After it, the families of instructions that differ in a register
or a condition only, each as a function to its constructors. -/

namespace Sys2Proof

/-- The part of an instruction word that makes the address M: sign, the two address bytes and the I byte (R81 to R83). -/
structure Addr where
  sign : Sign
  a1 : Nat
  a2 : Nat
  ix : Nat
  deriving DecidableEq, Repr

/-- The address part of a word that denotes the address of sign `s` and magnitude `aa`, index byte `ix`, on a MIX of byte size
`b` (R82, R99). -/
def Addr.make (b : Nat) (s : Sign) (aa ix : Nat) : Addr := ⟨s, aa / b, aa % b, ix⟩

/-- The instructions, in the order of spec/opcode_table.json. `a` is the address part; `f` is the F byte where it is an operand (a
field, a unit, a count) or is ignored (NOP). The constructor of the row IN is `inp`, since `in` is a word of Lean. -/
inductive Instr where
  | nop (a : Addr) (f : Nat)  -- NOP, R338
  | add (a : Addr) (f : Nat)  -- ADD, R161
  | sub (a : Addr) (f : Nat)  -- SUB, R162
  | mul (a : Addr) (f : Nat)  -- MUL, R163
  | div (a : Addr) (f : Nat)  -- DIV, R164
  | fadd (a : Addr)  -- FADD, R165
  | fsub (a : Addr)  -- FSUB, R165
  | fmul (a : Addr)  -- FMUL, R165
  | fdiv (a : Addr)  -- FDIV, R165
  | num (a : Addr)  -- NUM, R390
  | char (a : Addr)  -- CHAR, R391
  | hlt (a : Addr)  -- HLT, R339
  | sla (a : Addr)  -- SLA, R332
  | sra (a : Addr)  -- SRA, R333
  | slax (a : Addr)  -- SLAX, R334
  | srax (a : Addr)  -- SRAX, R335
  | slc (a : Addr)  -- SLC, R336
  | src (a : Addr)  -- SRC, R337
  | move (a : Addr) (f : Nat)  -- MOVE, R330
  | lda (a : Addr) (f : Nat)  -- LDA, R111
  | ld1 (a : Addr) (f : Nat)  -- LD1, R112
  | ld2 (a : Addr) (f : Nat)  -- LD2, R113
  | ld3 (a : Addr) (f : Nat)  -- LD3, R114
  | ld4 (a : Addr) (f : Nat)  -- LD4, R115
  | ld5 (a : Addr) (f : Nat)  -- LD5, R116
  | ld6 (a : Addr) (f : Nat)  -- LD6, R117
  | ldx (a : Addr) (f : Nat)  -- LDX, R118
  | ldan (a : Addr) (f : Nat)  -- LDAN, R120
  | ld1n (a : Addr) (f : Nat)  -- LD1N, R121
  | ld2n (a : Addr) (f : Nat)  -- LD2N, R122
  | ld3n (a : Addr) (f : Nat)  -- LD3N, R123
  | ld4n (a : Addr) (f : Nat)  -- LD4N, R124
  | ld5n (a : Addr) (f : Nat)  -- LD5N, R125
  | ld6n (a : Addr) (f : Nat)  -- LD6N, R126
  | ldxn (a : Addr) (f : Nat)  -- LDXN, R127
  | sta (a : Addr) (f : Nat)  -- STA, R141
  | st1 (a : Addr) (f : Nat)  -- ST1, R142
  | st2 (a : Addr) (f : Nat)  -- ST2, R143
  | st3 (a : Addr) (f : Nat)  -- ST3, R144
  | st4 (a : Addr) (f : Nat)  -- ST4, R145
  | st5 (a : Addr) (f : Nat)  -- ST5, R146
  | st6 (a : Addr) (f : Nat)  -- ST6, R147
  | stx (a : Addr) (f : Nat)  -- STX, R148
  | stj (a : Addr) (f : Nat)  -- STJ, R149
  | stz (a : Addr) (f : Nat)  -- STZ, R150
  | jbus (a : Addr) (f : Nat)  -- JBUS, R369
  | ioc (a : Addr) (f : Nat)  -- IOC, R364
  | inp (a : Addr) (f : Nat)  -- IN, R362
  | out (a : Addr) (f : Nat)  -- OUT, R363
  | jred (a : Addr) (f : Nat)  -- JRED, R368
  | jmp (a : Addr)  -- JMP, R252
  | jsj (a : Addr)  -- JSJ, R253
  | jov (a : Addr)  -- JOV, R254
  | jnov (a : Addr)  -- JNOV, R255
  | jl (a : Addr)  -- JL, R256
  | je (a : Addr)  -- JE, R257
  | jg (a : Addr)  -- JG, R258
  | jge (a : Addr)  -- JGE, R259
  | jne (a : Addr)  -- JNE, R260
  | jle (a : Addr)  -- JLE, R261
  | jan (a : Addr)  -- JAN, R263
  | jaz (a : Addr)  -- JAZ, R264
  | jap (a : Addr)  -- JAP, R265
  | jann (a : Addr)  -- JANN, R266
  | janz (a : Addr)  -- JANZ, R267
  | janp (a : Addr)  -- JANP, R268
  | j1n (a : Addr)  -- J1N, R275
  | j1z (a : Addr)  -- J1Z, R276
  | j1p (a : Addr)  -- J1P, R277
  | j1nn (a : Addr)  -- J1NN, R278
  | j1nz (a : Addr)  -- J1NZ, R279
  | j1np (a : Addr)  -- J1NP, R280
  | j2n (a : Addr)  -- J2N, R281
  | j2z (a : Addr)  -- J2Z, R282
  | j2p (a : Addr)  -- J2P, R283
  | j2nn (a : Addr)  -- J2NN, R284
  | j2nz (a : Addr)  -- J2NZ, R285
  | j2np (a : Addr)  -- J2NP, R286
  | j3n (a : Addr)  -- J3N, R287
  | j3z (a : Addr)  -- J3Z, R288
  | j3p (a : Addr)  -- J3P, R289
  | j3nn (a : Addr)  -- J3NN, R290
  | j3nz (a : Addr)  -- J3NZ, R291
  | j3np (a : Addr)  -- J3NP, R292
  | j4n (a : Addr)  -- J4N, R293
  | j4z (a : Addr)  -- J4Z, R294
  | j4p (a : Addr)  -- J4P, R295
  | j4nn (a : Addr)  -- J4NN, R296
  | j4nz (a : Addr)  -- J4NZ, R297
  | j4np (a : Addr)  -- J4NP, R298
  | j5n (a : Addr)  -- J5N, R299
  | j5z (a : Addr)  -- J5Z, R300
  | j5p (a : Addr)  -- J5P, R301
  | j5nn (a : Addr)  -- J5NN, R302
  | j5nz (a : Addr)  -- J5NZ, R303
  | j5np (a : Addr)  -- J5NP, R304
  | j6n (a : Addr)  -- J6N, R305
  | j6z (a : Addr)  -- J6Z, R306
  | j6p (a : Addr)  -- J6P, R307
  | j6nn (a : Addr)  -- J6NN, R308
  | j6nz (a : Addr)  -- J6NZ, R309
  | j6np (a : Addr)  -- J6NP, R310
  | jxn (a : Addr)  -- JXN, R269
  | jxz (a : Addr)  -- JXZ, R270
  | jxp (a : Addr)  -- JXP, R271
  | jxnn (a : Addr)  -- JXNN, R272
  | jxnz (a : Addr)  -- JXNZ, R273
  | jxnp (a : Addr)  -- JXNP, R274
  | inca (a : Addr)  -- INCA, R197
  | deca (a : Addr)  -- DECA, R205
  | enta (a : Addr)  -- ENTA, R181
  | enna (a : Addr)  -- ENNA, R189
  | inc1 (a : Addr)  -- INC1, R198
  | dec1 (a : Addr)  -- DEC1, R206
  | ent1 (a : Addr)  -- ENT1, R182
  | enn1 (a : Addr)  -- ENN1, R190
  | inc2 (a : Addr)  -- INC2, R199
  | dec2 (a : Addr)  -- DEC2, R207
  | ent2 (a : Addr)  -- ENT2, R183
  | enn2 (a : Addr)  -- ENN2, R191
  | inc3 (a : Addr)  -- INC3, R200
  | dec3 (a : Addr)  -- DEC3, R208
  | ent3 (a : Addr)  -- ENT3, R184
  | enn3 (a : Addr)  -- ENN3, R192
  | inc4 (a : Addr)  -- INC4, R201
  | dec4 (a : Addr)  -- DEC4, R209
  | ent4 (a : Addr)  -- ENT4, R185
  | enn4 (a : Addr)  -- ENN4, R193
  | inc5 (a : Addr)  -- INC5, R202
  | dec5 (a : Addr)  -- DEC5, R210
  | ent5 (a : Addr)  -- ENT5, R186
  | enn5 (a : Addr)  -- ENN5, R194
  | inc6 (a : Addr)  -- INC6, R203
  | dec6 (a : Addr)  -- DEC6, R211
  | ent6 (a : Addr)  -- ENT6, R187
  | enn6 (a : Addr)  -- ENN6, R195
  | incx (a : Addr)  -- INCX, R204
  | decx (a : Addr)  -- DECX, R212
  | entx (a : Addr)  -- ENTX, R188
  | ennx (a : Addr)  -- ENNX, R196
  | cmpa (a : Addr) (f : Nat)  -- CMPA, R231
  | cmp1 (a : Addr) (f : Nat)  -- CMP1, R232
  | cmp2 (a : Addr) (f : Nat)  -- CMP2, R233
  | cmp3 (a : Addr) (f : Nat)  -- CMP3, R234
  | cmp4 (a : Addr) (f : Nat)  -- CMP4, R235
  | cmp5 (a : Addr) (f : Nat)  -- CMP5, R236
  | cmp6 (a : Addr) (f : Nat)  -- CMP6, R237
  | cmpx (a : Addr) (f : Nat)  -- CMPX, R238
  deriving DecidableEq, Repr

/-- The six conditions of the register jumps (45_jump.md R262): negative, zero, positive, nonnegative, nonzero, nonpositive. -/
inductive Cond where
  | n
  | z
  | p
  | nn
  | nz
  | np
  deriving DecidableEq, Repr

/-- The six conditions on the comparison indicator (45_jump.md R256 to R261). -/
inductive CiCond where
  | l
  | e
  | g
  | ge
  | ne
  | le
  deriving DecidableEq, Repr

/-- What a storing instruction stores: a register, rJ or plus zero (41_storing.md R140). -/
inductive StoreSource where
  | reg (r : Reg)
  | j
  | zero
  deriving DecidableEq, Repr

/-- The six shifts (46_miscellaneous.md R332 to R337). -/
inductive ShiftKind where
  | sla
  | sra
  | slax
  | srax
  | slc
  | src
  deriving DecidableEq, Repr

/-- The four arithmetic operators (42_arithmetic.md R161 to R164). -/
inductive ArithKind where
  | add
  | sub
  | mul
  | div
  deriving DecidableEq, Repr

/-- The loading instructions: the register, and whether the opposite sign is loaded (40_loading.md R110, R119). -/
def Instr.load : Reg → Bool → Addr → Nat → Instr
  | .a, false, a, f => .lda a f
  | .i .i1, false, a, f => .ld1 a f
  | .i .i2, false, a, f => .ld2 a f
  | .i .i3, false, a, f => .ld3 a f
  | .i .i4, false, a, f => .ld4 a f
  | .i .i5, false, a, f => .ld5 a f
  | .i .i6, false, a, f => .ld6 a f
  | .x, false, a, f => .ldx a f
  | .a, true, a, f => .ldan a f
  | .i .i1, true, a, f => .ld1n a f
  | .i .i2, true, a, f => .ld2n a f
  | .i .i3, true, a, f => .ld3n a f
  | .i .i4, true, a, f => .ld4n a f
  | .i .i5, true, a, f => .ld5n a f
  | .i .i6, true, a, f => .ld6n a f
  | .x, true, a, f => .ldxn a f

/-- The storing instructions (41_storing.md R140). -/
def Instr.store : StoreSource → Addr → Nat → Instr
  | .reg .a, a, f => .sta a f
  | .reg (.i .i1), a, f => .st1 a f
  | .reg (.i .i2), a, f => .st2 a f
  | .reg (.i .i3), a, f => .st3 a f
  | .reg (.i .i4), a, f => .st4 a f
  | .reg (.i .i5), a, f => .st5 a f
  | .reg (.i .i6), a, f => .st6 a f
  | .reg .x, a, f => .stx a f
  | .j, a, f => .stj a f
  | .zero, a, f => .stz a f

/-- The arithmetic instructions (42_arithmetic.md R161 to R164). -/
def Instr.arith : ArithKind → Addr → Nat → Instr
  | .add, a, f => .add a f
  | .sub, a, f => .sub a f
  | .mul, a, f => .mul a f
  | .div, a, f => .div a f

/-- The floating-point rows of the opcode table (42_arithmetic.md R165). -/
def Instr.floating : ArithKind → Addr → Instr
  | .add, a => .fadd a
  | .sub, a => .fsub a
  | .mul, a => .fmul a
  | .div, a => .fdiv a

/-- ENT and ENN: the register, and whether the opposite sign is entered (43_address_transfer.md R180). -/
def Instr.enter : Reg → Bool → Addr → Instr
  | .a, false, a => .enta a
  | .i .i1, false, a => .ent1 a
  | .i .i2, false, a => .ent2 a
  | .i .i3, false, a => .ent3 a
  | .i .i4, false, a => .ent4 a
  | .i .i5, false, a => .ent5 a
  | .i .i6, false, a => .ent6 a
  | .x, false, a => .entx a
  | .a, true, a => .enna a
  | .i .i1, true, a => .enn1 a
  | .i .i2, true, a => .enn2 a
  | .i .i3, true, a => .enn3 a
  | .i .i4, true, a => .enn4 a
  | .i .i5, true, a => .enn5 a
  | .i .i6, true, a => .enn6 a
  | .x, true, a => .ennx a

/-- INC and DEC: the register, and whether M is subtracted (43_address_transfer.md R197, R205, R213). -/
def Instr.increase : Reg → Bool → Addr → Instr
  | .a, false, a => .inca a
  | .i .i1, false, a => .inc1 a
  | .i .i2, false, a => .inc2 a
  | .i .i3, false, a => .inc3 a
  | .i .i4, false, a => .inc4 a
  | .i .i5, false, a => .inc5 a
  | .i .i6, false, a => .inc6 a
  | .x, false, a => .incx a
  | .a, true, a => .deca a
  | .i .i1, true, a => .dec1 a
  | .i .i2, true, a => .dec2 a
  | .i .i3, true, a => .dec3 a
  | .i .i4, true, a => .dec4 a
  | .i .i5, true, a => .dec5 a
  | .i .i6, true, a => .dec6 a
  | .x, true, a => .decx a

/-- The comparisons (44_comparison.md R230). -/
def Instr.compare : Reg → Addr → Nat → Instr
  | .a, a, f => .cmpa a f
  | .i .i1, a, f => .cmp1 a f
  | .i .i2, a, f => .cmp2 a f
  | .i .i3, a, f => .cmp3 a f
  | .i .i4, a, f => .cmp4 a f
  | .i .i5, a, f => .cmp5 a f
  | .i .i6, a, f => .cmp6 a f
  | .x, a, f => .cmpx a f

/-- The jumps on the comparison indicator (45_jump.md R256 to R261). -/
def Instr.ciJump : CiCond → Addr → Instr
  | .l, a => .jl a
  | .e, a => .je a
  | .g, a => .jg a
  | .ge, a => .jge a
  | .ne, a => .jne a
  | .le, a => .jle a

/-- The jumps on a register (45_jump.md R262). -/
def Instr.regJump : Reg → Cond → Addr → Instr
  | .a, .n, a => .jan a
  | .a, .z, a => .jaz a
  | .a, .p, a => .jap a
  | .a, .nn, a => .jann a
  | .a, .nz, a => .janz a
  | .a, .np, a => .janp a
  | .i .i1, .n, a => .j1n a
  | .i .i1, .z, a => .j1z a
  | .i .i1, .p, a => .j1p a
  | .i .i1, .nn, a => .j1nn a
  | .i .i1, .nz, a => .j1nz a
  | .i .i1, .np, a => .j1np a
  | .i .i2, .n, a => .j2n a
  | .i .i2, .z, a => .j2z a
  | .i .i2, .p, a => .j2p a
  | .i .i2, .nn, a => .j2nn a
  | .i .i2, .nz, a => .j2nz a
  | .i .i2, .np, a => .j2np a
  | .i .i3, .n, a => .j3n a
  | .i .i3, .z, a => .j3z a
  | .i .i3, .p, a => .j3p a
  | .i .i3, .nn, a => .j3nn a
  | .i .i3, .nz, a => .j3nz a
  | .i .i3, .np, a => .j3np a
  | .i .i4, .n, a => .j4n a
  | .i .i4, .z, a => .j4z a
  | .i .i4, .p, a => .j4p a
  | .i .i4, .nn, a => .j4nn a
  | .i .i4, .nz, a => .j4nz a
  | .i .i4, .np, a => .j4np a
  | .i .i5, .n, a => .j5n a
  | .i .i5, .z, a => .j5z a
  | .i .i5, .p, a => .j5p a
  | .i .i5, .nn, a => .j5nn a
  | .i .i5, .nz, a => .j5nz a
  | .i .i5, .np, a => .j5np a
  | .i .i6, .n, a => .j6n a
  | .i .i6, .z, a => .j6z a
  | .i .i6, .p, a => .j6p a
  | .i .i6, .nn, a => .j6nn a
  | .i .i6, .nz, a => .j6nz a
  | .i .i6, .np, a => .j6np a
  | .x, .n, a => .jxn a
  | .x, .z, a => .jxz a
  | .x, .p, a => .jxp a
  | .x, .nn, a => .jxnn a
  | .x, .nz, a => .jxnz a
  | .x, .np, a => .jxnp a

/-- The shifts (46_miscellaneous.md R331). -/
def Instr.shift : ShiftKind → Addr → Instr
  | .sla, a => .sla a
  | .sra, a => .sra a
  | .slax, a => .slax a
  | .srax, a => .srax a
  | .slc, a => .slc a
  | .src, a => .src a

/-- The address part of an instruction that uses M; none for NOP, NUM and CHAR, which ignore it (30_encoding.md R93, R94). -/
def Instr.address : Instr → Option Addr
  | .nop _ _ => none
  | .add a _ => some a
  | .sub a _ => some a
  | .mul a _ => some a
  | .div a _ => some a
  | .fadd a => some a
  | .fsub a => some a
  | .fmul a => some a
  | .fdiv a => some a
  | .num _ => none
  | .char _ => none
  | .hlt a => some a
  | .sla a => some a
  | .sra a => some a
  | .slax a => some a
  | .srax a => some a
  | .slc a => some a
  | .src a => some a
  | .move a _ => some a
  | .lda a _ => some a
  | .ld1 a _ => some a
  | .ld2 a _ => some a
  | .ld3 a _ => some a
  | .ld4 a _ => some a
  | .ld5 a _ => some a
  | .ld6 a _ => some a
  | .ldx a _ => some a
  | .ldan a _ => some a
  | .ld1n a _ => some a
  | .ld2n a _ => some a
  | .ld3n a _ => some a
  | .ld4n a _ => some a
  | .ld5n a _ => some a
  | .ld6n a _ => some a
  | .ldxn a _ => some a
  | .sta a _ => some a
  | .st1 a _ => some a
  | .st2 a _ => some a
  | .st3 a _ => some a
  | .st4 a _ => some a
  | .st5 a _ => some a
  | .st6 a _ => some a
  | .stx a _ => some a
  | .stj a _ => some a
  | .stz a _ => some a
  | .jbus a _ => some a
  | .ioc a _ => some a
  | .inp a _ => some a
  | .out a _ => some a
  | .jred a _ => some a
  | .jmp a => some a
  | .jsj a => some a
  | .jov a => some a
  | .jnov a => some a
  | .jl a => some a
  | .je a => some a
  | .jg a => some a
  | .jge a => some a
  | .jne a => some a
  | .jle a => some a
  | .jan a => some a
  | .jaz a => some a
  | .jap a => some a
  | .jann a => some a
  | .janz a => some a
  | .janp a => some a
  | .j1n a => some a
  | .j1z a => some a
  | .j1p a => some a
  | .j1nn a => some a
  | .j1nz a => some a
  | .j1np a => some a
  | .j2n a => some a
  | .j2z a => some a
  | .j2p a => some a
  | .j2nn a => some a
  | .j2nz a => some a
  | .j2np a => some a
  | .j3n a => some a
  | .j3z a => some a
  | .j3p a => some a
  | .j3nn a => some a
  | .j3nz a => some a
  | .j3np a => some a
  | .j4n a => some a
  | .j4z a => some a
  | .j4p a => some a
  | .j4nn a => some a
  | .j4nz a => some a
  | .j4np a => some a
  | .j5n a => some a
  | .j5z a => some a
  | .j5p a => some a
  | .j5nn a => some a
  | .j5nz a => some a
  | .j5np a => some a
  | .j6n a => some a
  | .j6z a => some a
  | .j6p a => some a
  | .j6nn a => some a
  | .j6nz a => some a
  | .j6np a => some a
  | .jxn a => some a
  | .jxz a => some a
  | .jxp a => some a
  | .jxnn a => some a
  | .jxnz a => some a
  | .jxnp a => some a
  | .inca a => some a
  | .deca a => some a
  | .enta a => some a
  | .enna a => some a
  | .inc1 a => some a
  | .dec1 a => some a
  | .ent1 a => some a
  | .enn1 a => some a
  | .inc2 a => some a
  | .dec2 a => some a
  | .ent2 a => some a
  | .enn2 a => some a
  | .inc3 a => some a
  | .dec3 a => some a
  | .ent3 a => some a
  | .enn3 a => some a
  | .inc4 a => some a
  | .dec4 a => some a
  | .ent4 a => some a
  | .enn4 a => some a
  | .inc5 a => some a
  | .dec5 a => some a
  | .ent5 a => some a
  | .enn5 a => some a
  | .inc6 a => some a
  | .dec6 a => some a
  | .ent6 a => some a
  | .enn6 a => some a
  | .incx a => some a
  | .decx a => some a
  | .entx a => some a
  | .ennx a => some a
  | .cmpa a _ => some a
  | .cmp1 a _ => some a
  | .cmp2 a _ => some a
  | .cmp3 a _ => some a
  | .cmp4 a _ => some a
  | .cmp5 a _ => some a
  | .cmp6 a _ => some a
  | .cmpx a _ => some a

end Sys2Proof
end

