-- ==== Sys2Proof/WellFormed.lean ====
section
/-! DEFINITION. Which instructions a MIX word of byte size `b` can hold: every byte below `b`, and F = 6 on ADD, SUB, MUL and DIV
is the floating-point row instead (spec/00_scope.md R4, spec/30_encoding.md R81, R92). -/

namespace Sys2Proof

/-- Address bytes and I byte are bytes (30_encoding.md R81, 00_scope.md R4). -/
def Addr.wellFormed (b : Nat) (a : Addr) : Bool :=
  decide (a.a1 < b) && decide (a.a2 < b) && decide (a.ix < b)

/-- The instruction is what some word of byte size `b` encodes. -/
def Instr.wellFormed (b : Nat) : Instr → Bool
  | .add a f | .sub a f | .mul a f | .div a f =>
    a.wellFormed b && decide (f < b) && decide (f ≠ 6)
  | .nop a f | .move a f | .lda a f | .ld1 a f | .ld2 a f | .ld3 a f | .ld4 a f | .ld5 a f
  | .ld6 a f | .ldx a f | .ldan a f | .ld1n a f | .ld2n a f | .ld3n a f | .ld4n a f | .ld5n a f
  | .ld6n a f | .ldxn a f | .sta a f | .st1 a f | .st2 a f | .st3 a f | .st4 a f | .st5 a f
  | .st6 a f | .stx a f | .stj a f | .stz a f | .jbus a f | .ioc a f | .inp a f | .out a f
  | .jred a f | .cmpa a f | .cmp1 a f | .cmp2 a f | .cmp3 a f | .cmp4 a f | .cmp5 a f | .cmp6 a f
  | .cmpx a f =>
    a.wellFormed b && decide (f < b)
  | .fadd a | .fsub a | .fmul a | .fdiv a | .num a | .char a | .hlt a | .sla a | .sra a | .slax a
  | .srax a | .slc a | .src a | .jmp a | .jsj a | .jov a | .jnov a | .jl a | .je a | .jg a
  | .jge a | .jne a | .jle a | .jan a | .jaz a | .jap a | .jann a | .janz a | .janp a | .j1n a
  | .j1z a | .j1p a | .j1nn a | .j1nz a | .j1np a | .j2n a | .j2z a | .j2p a | .j2nn a | .j2nz a
  | .j2np a | .j3n a | .j3z a | .j3p a | .j3nn a | .j3nz a | .j3np a | .j4n a | .j4z a | .j4p a
  | .j4nn a | .j4nz a | .j4np a | .j5n a | .j5z a | .j5p a | .j5nn a | .j5nz a | .j5np a | .j6n a
  | .j6z a | .j6p a | .j6nn a | .j6nz a | .j6np a | .jxn a | .jxz a | .jxp a | .jxnn a | .jxnz a
  | .jxnp a | .inca a | .deca a | .enta a | .enna a | .inc1 a | .dec1 a | .ent1 a | .enn1 a | .inc2 a
  | .dec2 a | .ent2 a | .enn2 a | .inc3 a | .dec3 a | .ent3 a | .enn3 a | .inc4 a | .dec4 a | .ent4 a
  | .enn4 a | .inc5 a | .dec5 a | .ent5 a | .enn5 a | .inc6 a | .dec6 a | .ent6 a | .enn6 a | .incx a
  | .decx a | .entx a | .ennx a =>
    a.wellFormed b

end Sys2Proof
end

