-- ==== Sys2Proof/Decode.lean ====
section
/-! DEFINITION. Decoding, by the table `OPTAB` of spec/30_encoding.md R90 (R88, R91, R92), and encoding (R81), written from the
same table once more; then the bit-level packing that spec/opcode_table.json uses for byte size 64 (R96), and the words that the
notation of instructions denotes (R99, R100). The numbers of the table that the source does not give are PRESUMED (the spec's own
general knowledge, log 17). -/

namespace Sys2Proof

/-- A row of `OPTAB`: the operation code C, the F that selects the operation (none where F is an operand or ignored), the name, the
F that the notation assumes when it is not written (R100), and the instruction of an address part and an F byte. -/
structure OpRow where
  c : Nat
  sel : Option Nat
  name : String
  normalF : Nat
  build : Addr → Nat → Instr

/-- The row whose F is an operand. -/
def OpRow.operandF (c : Nat) (name : String) (normalF : Nat) (mk : Addr → Nat → Instr) : OpRow :=
  ⟨c, none, name, normalF, mk⟩

/-- The row that the pair (C, F) selects. -/
def OpRow.selectedBy (c f : Nat) (name : String) (mk : Addr → Instr) : OpRow :=
  ⟨c, some f, name, f, fun a _ => mk a⟩

/-- NOP, the floating-point rows (which stand before the integer forms of their C, R92) and the arithmetic operators (R90). -/
def optabArith : List OpRow := [
  .operandF 0 "NOP" 0 .nop,
  .selectedBy 1 6 "FADD" .fadd,
  .selectedBy 2 6 "FSUB" .fsub,
  .selectedBy 3 6 "FMUL" .fmul,
  .selectedBy 4 6 "FDIV" .fdiv,
  .operandF 1 "ADD" 5 .add,
  .operandF 2 "SUB" 5 .sub,
  .operandF 3 "MUL" 5 .mul,
  .operandF 4 "DIV" 5 .div]

/-- NUM, CHAR, HLT, the shifts and MOVE (R90). -/
def optabMisc : List OpRow := [
  .selectedBy 5 0 "NUM" .num,
  .selectedBy 5 1 "CHAR" .char,
  .selectedBy 5 2 "HLT" .hlt,
  .selectedBy 6 0 "SLA" .sla,
  .selectedBy 6 1 "SRA" .sra,
  .selectedBy 6 2 "SLAX" .slax,
  .selectedBy 6 3 "SRAX" .srax,
  .selectedBy 6 4 "SLC" .slc,
  .selectedBy 6 5 "SRC" .src,
  .operandF 7 "MOVE" 1 .move]

/-- The loading operators (R90). -/
def optabLoad : List OpRow := [
  .operandF 8 "LDA" 5 .lda,
  .operandF 9 "LD1" 5 .ld1,
  .operandF 10 "LD2" 5 .ld2,
  .operandF 11 "LD3" 5 .ld3,
  .operandF 12 "LD4" 5 .ld4,
  .operandF 13 "LD5" 5 .ld5,
  .operandF 14 "LD6" 5 .ld6,
  .operandF 15 "LDX" 5 .ldx,
  .operandF 16 "LDAN" 5 .ldan,
  .operandF 17 "LD1N" 5 .ld1n,
  .operandF 18 "LD2N" 5 .ld2n,
  .operandF 19 "LD3N" 5 .ld3n,
  .operandF 20 "LD4N" 5 .ld4n,
  .operandF 21 "LD5N" 5 .ld5n,
  .operandF 22 "LD6N" 5 .ld6n,
  .operandF 23 "LDXN" 5 .ldxn]

/-- The storing operators (R90). -/
def optabStore : List OpRow := [
  .operandF 24 "STA" 5 .sta,
  .operandF 25 "ST1" 5 .st1,
  .operandF 26 "ST2" 5 .st2,
  .operandF 27 "ST3" 5 .st3,
  .operandF 28 "ST4" 5 .st4,
  .operandF 29 "ST5" 5 .st5,
  .operandF 30 "ST6" 5 .st6,
  .operandF 31 "STX" 5 .stx,
  .operandF 32 "STJ" 2 .stj,
  .operandF 33 "STZ" 5 .stz]

/-- The input-output operators (R90). -/
def optabIO : List OpRow := [
  .operandF 34 "JBUS" 0 .jbus,
  .operandF 35 "IOC" 0 .ioc,
  .operandF 36 "IN" 0 .inp,
  .operandF 37 "OUT" 0 .out,
  .operandF 38 "JRED" 0 .jred]

/-- The jumps of C = 39 (R90). -/
def optabJump : List OpRow := [
  .selectedBy 39 0 "JMP" .jmp,
  .selectedBy 39 1 "JSJ" .jsj,
  .selectedBy 39 2 "JOV" .jov,
  .selectedBy 39 3 "JNOV" .jnov,
  .selectedBy 39 4 "JL" .jl,
  .selectedBy 39 5 "JE" .je,
  .selectedBy 39 6 "JG" .jg,
  .selectedBy 39 7 "JGE" .jge,
  .selectedBy 39 8 "JNE" .jne,
  .selectedBy 39 9 "JLE" .jle]

/-- The jumps on rA and rI1 to rI3 (R90). -/
def optabRegJumpA : List OpRow := [
  .selectedBy 40 0 "JAN" .jan,
  .selectedBy 40 1 "JAZ" .jaz,
  .selectedBy 40 2 "JAP" .jap,
  .selectedBy 40 3 "JANN" .jann,
  .selectedBy 40 4 "JANZ" .janz,
  .selectedBy 40 5 "JANP" .janp,
  .selectedBy 41 0 "J1N" .j1n,
  .selectedBy 41 1 "J1Z" .j1z,
  .selectedBy 41 2 "J1P" .j1p,
  .selectedBy 41 3 "J1NN" .j1nn,
  .selectedBy 41 4 "J1NZ" .j1nz,
  .selectedBy 41 5 "J1NP" .j1np,
  .selectedBy 42 0 "J2N" .j2n,
  .selectedBy 42 1 "J2Z" .j2z,
  .selectedBy 42 2 "J2P" .j2p,
  .selectedBy 42 3 "J2NN" .j2nn,
  .selectedBy 42 4 "J2NZ" .j2nz,
  .selectedBy 42 5 "J2NP" .j2np,
  .selectedBy 43 0 "J3N" .j3n,
  .selectedBy 43 1 "J3Z" .j3z,
  .selectedBy 43 2 "J3P" .j3p,
  .selectedBy 43 3 "J3NN" .j3nn,
  .selectedBy 43 4 "J3NZ" .j3nz,
  .selectedBy 43 5 "J3NP" .j3np]

/-- The jumps on rI4 to rI6 and rX (R90). -/
def optabRegJumpB : List OpRow := [
  .selectedBy 44 0 "J4N" .j4n,
  .selectedBy 44 1 "J4Z" .j4z,
  .selectedBy 44 2 "J4P" .j4p,
  .selectedBy 44 3 "J4NN" .j4nn,
  .selectedBy 44 4 "J4NZ" .j4nz,
  .selectedBy 44 5 "J4NP" .j4np,
  .selectedBy 45 0 "J5N" .j5n,
  .selectedBy 45 1 "J5Z" .j5z,
  .selectedBy 45 2 "J5P" .j5p,
  .selectedBy 45 3 "J5NN" .j5nn,
  .selectedBy 45 4 "J5NZ" .j5nz,
  .selectedBy 45 5 "J5NP" .j5np,
  .selectedBy 46 0 "J6N" .j6n,
  .selectedBy 46 1 "J6Z" .j6z,
  .selectedBy 46 2 "J6P" .j6p,
  .selectedBy 46 3 "J6NN" .j6nn,
  .selectedBy 46 4 "J6NZ" .j6nz,
  .selectedBy 46 5 "J6NP" .j6np,
  .selectedBy 47 0 "JXN" .jxn,
  .selectedBy 47 1 "JXZ" .jxz,
  .selectedBy 47 2 "JXP" .jxp,
  .selectedBy 47 3 "JXNN" .jxnn,
  .selectedBy 47 4 "JXNZ" .jxnz,
  .selectedBy 47 5 "JXNP" .jxnp]

/-- The address transfer operators (R90). -/
def optabTransfer : List OpRow := [
  .selectedBy 48 0 "INCA" .inca,
  .selectedBy 48 1 "DECA" .deca,
  .selectedBy 48 2 "ENTA" .enta,
  .selectedBy 48 3 "ENNA" .enna,
  .selectedBy 49 0 "INC1" .inc1,
  .selectedBy 49 1 "DEC1" .dec1,
  .selectedBy 49 2 "ENT1" .ent1,
  .selectedBy 49 3 "ENN1" .enn1,
  .selectedBy 50 0 "INC2" .inc2,
  .selectedBy 50 1 "DEC2" .dec2,
  .selectedBy 50 2 "ENT2" .ent2,
  .selectedBy 50 3 "ENN2" .enn2,
  .selectedBy 51 0 "INC3" .inc3,
  .selectedBy 51 1 "DEC3" .dec3,
  .selectedBy 51 2 "ENT3" .ent3,
  .selectedBy 51 3 "ENN3" .enn3,
  .selectedBy 52 0 "INC4" .inc4,
  .selectedBy 52 1 "DEC4" .dec4,
  .selectedBy 52 2 "ENT4" .ent4,
  .selectedBy 52 3 "ENN4" .enn4,
  .selectedBy 53 0 "INC5" .inc5,
  .selectedBy 53 1 "DEC5" .dec5,
  .selectedBy 53 2 "ENT5" .ent5,
  .selectedBy 53 3 "ENN5" .enn5,
  .selectedBy 54 0 "INC6" .inc6,
  .selectedBy 54 1 "DEC6" .dec6,
  .selectedBy 54 2 "ENT6" .ent6,
  .selectedBy 54 3 "ENN6" .enn6,
  .selectedBy 55 0 "INCX" .incx,
  .selectedBy 55 1 "DECX" .decx,
  .selectedBy 55 2 "ENTX" .entx,
  .selectedBy 55 3 "ENNX" .ennx]

/-- The comparison operators (R90). -/
def optabCompare : List OpRow := [
  .operandF 56 "CMPA" 5 .cmpa,
  .operandF 57 "CMP1" 5 .cmp1,
  .operandF 58 "CMP2" 5 .cmp2,
  .operandF 59 "CMP3" 5 .cmp3,
  .operandF 60 "CMP4" 5 .cmp4,
  .operandF 61 "CMP5" 5 .cmp5,
  .operandF 62 "CMP6" 5 .cmp6,
  .operandF 63 "CMPX" 5 .cmpx]

/-- `OPTAB` (R90), 144 instructions and the four refused floating-point rows. -/
def optab : List OpRow :=
  optabArith ++ optabMisc ++ optabLoad ++ optabStore ++ optabIO ++
  optabJump ++ optabRegJumpA ++ optabRegJumpB ++ optabTransfer ++ optabCompare

/-- The row that holds for the bytes C and F (R88). -/
def OpRow.matches (c f : Nat) (r : OpRow) : Bool :=
  r.c == c && (match r.sel with | none => true | some g => g == f)

/-- Why a word is refused (R91): its C and F select no instruction. -/
inductive DecodeError where
  | illegal (c f : Nat)
  deriving DecidableEq, Repr

/-- The address part of a word (R81). -/
def Word.addr (w : Word) : Addr := ⟨w.sign, w.b1, w.b2, w.b3⟩

/-- `decode(C, F)` on a word: total, refusing by name what the table does not hold (R88, R91, R92). -/
def decode (w : Word) : Except DecodeError Instr :=
  match optab.find? (OpRow.matches w.b5 w.b4) with
  | some r => .ok (r.build w.addr w.b4)
  | none => .error (.illegal w.b5 w.b4)

/-- The word of an address part, an F byte and a C byte (R81). -/
def Addr.word (a : Addr) (f c : Nat) : Word := ⟨a.sign, a.a1, a.a2, a.ix, f, c⟩

/-- The word that encodes an instruction (R81, R90). -/
def encode : Instr → Word
  | .nop a f => a.word f 0
  | .add a f => a.word f 1
  | .sub a f => a.word f 2
  | .mul a f => a.word f 3
  | .div a f => a.word f 4
  | .fadd a => a.word 6 1
  | .fsub a => a.word 6 2
  | .fmul a => a.word 6 3
  | .fdiv a => a.word 6 4
  | .num a => a.word 0 5
  | .char a => a.word 1 5
  | .hlt a => a.word 2 5
  | .sla a => a.word 0 6
  | .sra a => a.word 1 6
  | .slax a => a.word 2 6
  | .srax a => a.word 3 6
  | .slc a => a.word 4 6
  | .src a => a.word 5 6
  | .move a f => a.word f 7
  | .lda a f => a.word f 8
  | .ld1 a f => a.word f 9
  | .ld2 a f => a.word f 10
  | .ld3 a f => a.word f 11
  | .ld4 a f => a.word f 12
  | .ld5 a f => a.word f 13
  | .ld6 a f => a.word f 14
  | .ldx a f => a.word f 15
  | .ldan a f => a.word f 16
  | .ld1n a f => a.word f 17
  | .ld2n a f => a.word f 18
  | .ld3n a f => a.word f 19
  | .ld4n a f => a.word f 20
  | .ld5n a f => a.word f 21
  | .ld6n a f => a.word f 22
  | .ldxn a f => a.word f 23
  | .sta a f => a.word f 24
  | .st1 a f => a.word f 25
  | .st2 a f => a.word f 26
  | .st3 a f => a.word f 27
  | .st4 a f => a.word f 28
  | .st5 a f => a.word f 29
  | .st6 a f => a.word f 30
  | .stx a f => a.word f 31
  | .stj a f => a.word f 32
  | .stz a f => a.word f 33
  | .jbus a f => a.word f 34
  | .ioc a f => a.word f 35
  | .inp a f => a.word f 36
  | .out a f => a.word f 37
  | .jred a f => a.word f 38
  | .jmp a => a.word 0 39
  | .jsj a => a.word 1 39
  | .jov a => a.word 2 39
  | .jnov a => a.word 3 39
  | .jl a => a.word 4 39
  | .je a => a.word 5 39
  | .jg a => a.word 6 39
  | .jge a => a.word 7 39
  | .jne a => a.word 8 39
  | .jle a => a.word 9 39
  | .jan a => a.word 0 40
  | .jaz a => a.word 1 40
  | .jap a => a.word 2 40
  | .jann a => a.word 3 40
  | .janz a => a.word 4 40
  | .janp a => a.word 5 40
  | .j1n a => a.word 0 41
  | .j1z a => a.word 1 41
  | .j1p a => a.word 2 41
  | .j1nn a => a.word 3 41
  | .j1nz a => a.word 4 41
  | .j1np a => a.word 5 41
  | .j2n a => a.word 0 42
  | .j2z a => a.word 1 42
  | .j2p a => a.word 2 42
  | .j2nn a => a.word 3 42
  | .j2nz a => a.word 4 42
  | .j2np a => a.word 5 42
  | .j3n a => a.word 0 43
  | .j3z a => a.word 1 43
  | .j3p a => a.word 2 43
  | .j3nn a => a.word 3 43
  | .j3nz a => a.word 4 43
  | .j3np a => a.word 5 43
  | .j4n a => a.word 0 44
  | .j4z a => a.word 1 44
  | .j4p a => a.word 2 44
  | .j4nn a => a.word 3 44
  | .j4nz a => a.word 4 44
  | .j4np a => a.word 5 44
  | .j5n a => a.word 0 45
  | .j5z a => a.word 1 45
  | .j5p a => a.word 2 45
  | .j5nn a => a.word 3 45
  | .j5nz a => a.word 4 45
  | .j5np a => a.word 5 45
  | .j6n a => a.word 0 46
  | .j6z a => a.word 1 46
  | .j6p a => a.word 2 46
  | .j6nn a => a.word 3 46
  | .j6nz a => a.word 4 46
  | .j6np a => a.word 5 46
  | .jxn a => a.word 0 47
  | .jxz a => a.word 1 47
  | .jxp a => a.word 2 47
  | .jxnn a => a.word 3 47
  | .jxnz a => a.word 4 47
  | .jxnp a => a.word 5 47
  | .inca a => a.word 0 48
  | .deca a => a.word 1 48
  | .enta a => a.word 2 48
  | .enna a => a.word 3 48
  | .inc1 a => a.word 0 49
  | .dec1 a => a.word 1 49
  | .ent1 a => a.word 2 49
  | .enn1 a => a.word 3 49
  | .inc2 a => a.word 0 50
  | .dec2 a => a.word 1 50
  | .ent2 a => a.word 2 50
  | .enn2 a => a.word 3 50
  | .inc3 a => a.word 0 51
  | .dec3 a => a.word 1 51
  | .ent3 a => a.word 2 51
  | .enn3 a => a.word 3 51
  | .inc4 a => a.word 0 52
  | .dec4 a => a.word 1 52
  | .ent4 a => a.word 2 52
  | .enn4 a => a.word 3 52
  | .inc5 a => a.word 0 53
  | .dec5 a => a.word 1 53
  | .ent5 a => a.word 2 53
  | .enn5 a => a.word 3 53
  | .inc6 a => a.word 0 54
  | .dec6 a => a.word 1 54
  | .ent6 a => a.word 2 54
  | .enn6 a => a.word 3 54
  | .incx a => a.word 0 55
  | .decx a => a.word 1 55
  | .entx a => a.word 2 55
  | .ennx a => a.word 3 55
  | .cmpa a f => a.word f 56
  | .cmp1 a f => a.word f 57
  | .cmp2 a f => a.word f 58
  | .cmp3 a f => a.word f 59
  | .cmp4 a f => a.word f 60
  | .cmp5 a f => a.word f 61
  | .cmp6 a f => a.word f 62
  | .cmpx a f => a.word f 63

/-- The word whose 31 bits are `w`, in the packing of spec/opcode_table.json: bit 30 the sign, bits 29..24 byte 1, ..., bits 5..0
byte 5 (R96, a convenience of the spec for byte size 64, log 21). -/
def unpackBits (w : Nat) : Word :=
  ⟨if w / 2 ^ 30 % 2 = 1 then .minus else .plus,
    w / 2 ^ 24 % 64, w / 2 ^ 18 % 64, w / 2 ^ 12 % 64, w / 2 ^ 6 % 64, w % 64⟩

/-- The instruction that the decoder reads from a row's bits: the bits from `nbits` on are 0, and a word has 31 of them. -/
def decodeTableWord (nbits w : Nat) : Option Instr :=
  if w % 2 ^ nbits < 2 ^ 31 then
    match decode (unpackBits (w % 2 ^ nbits)) with
    | .ok i => some i
    | .error _ => none
  else none

/-- The F byte of a line whose operator is this row, `f` being the F written in parentheses, none where it is not written: the F written,
else the normal F (R100; that of NOP, MOVE and the input-output operators is PRESUMED, log 28). An operator told apart by F stands for
its own F and "no (F) is written" after it (R99); the spec gives a line that writes one there no meaning, and the model answers none,
also where the F written is the selecting one (DESIGN CHOICE, log 28). -/
def OpRow.fByte (r : OpRow) (f : Option Nat) : Option Nat :=
  match r.sel, f with
  | none, some g => some g
  | none, none => some r.normalF
  | some g, none => some g
  | some _, some _ => none

/-- The word that `OP ADDRESS,I(F)` denotes on a MIX of byte size `b`: `name` is OP, `s` and `aa` the sign and magnitude of ADDRESS,
`ix` is I, and `f` is the F written in parentheses, none where it is not written (R99, R100). None where OP is no operator, and where an
F is written after an operator told apart by F (DESIGN CHOICE, log 28). -/
def assemble (b : Nat) (name : String) (s : Sign) (aa ix : Nat) (f : Option Nat) : Option Word :=
  (optab.find? (fun r => r.name == name)).bind fun r =>
    (r.fByte f).map fun g => (Addr.make b s aa ix).word g r.c

end Sys2Proof
end

