-- ==== Sys2Proof/Machine/Numbers.lean ====
section
/-! DEFINITION. Words and shorts as numbers (spec/00_scope.md R7, R8 and section 6): magnitude, value, the word of a sign and a
magnitude, the bytes of a word in order. `b` is the byte size throughout. -/

namespace Sys2Proof.Machine

/-- `W = b^5`, the word size (00_scope.md section 6). -/
def wordSize (b : Nat) : Nat := b ^ 5

/-- The bytes 1 to 5 of a word, in order (R7). -/
def wordBytes (w : Word) : List Nat := [w.b1, w.b2, w.b3, w.b4, w.b5]

/-- The word of a sign and its first five bytes of a list. -/
def wordOfBytes (s : Sign) (l : List Nat) : Word :=
  ⟨s, l.getD 0 0, l.getD 1 0, l.getD 2 0, l.getD 3 0, l.getD 4 0⟩

/-- `mag(w)` (R8). -/
def wordMag (b : Nat) (w : Word) : Nat :=
  w.b1 * b ^ 4 + w.b2 * b ^ 3 + w.b3 * b ^ 2 + w.b4 * b + w.b5

/-- `val(w)` (R8). -/
def wordVal (b : Nat) (w : Word) : Int :=
  w.sign.apply (wordMag b w)

/-- `word(s, m)` for `0 ≤ m < W` (00_scope.md section 6). -/
def wordOfMag (b : Nat) (s : Sign) (m : Nat) : Word :=
  ⟨s, m / b ^ 4 % b, m / b ^ 3 % b, m / b ^ 2 % b, m / b % b, m % b⟩

/-- The magnitude of an index register (10_state.md R23). -/
def shortMag (b : Nat) (h : Short) : Nat := h.b4 * b + h.b5

/-- The value of an index register. -/
def shortVal (b : Nat) (h : Short) : Int :=
  h.sign.apply (shortMag b h)

/-- `short(s, m)` for `0 ≤ m < b^2` (00_scope.md section 6). -/
def shortOfMag (b : Nat) (s : Sign) (m : Nat) : Short :=
  ⟨s, m / b % b, m % b⟩

/-- `asword`: an index register as a word, bytes 1, 2, 3 zero (10_state.md R23). -/
def shortAsWord (h : Short) : Word := ⟨h.sign, 0, 0, 0, h.b4, h.b5⟩

end Sys2Proof.Machine
end

