-- ==== Sys2Proof/Machine/Sparse.lean ====
section
/-! DEFINITION. Tables of (number, content) in one canonical form: numbers strictly rising, and in a table with a default no entry
equal to it. They hold the memory, the busy units, the tapes and the disk blocks. -/

namespace Sys2Proof.Machine

/-- The content listed for a number. -/
def sparseLookup {α : Type} : List (Nat × α) → Nat → Option α
  | [], _ => none
  | (k, v) :: l, n => if k = n then some v else sparseLookup l n

/-- The table without a number. -/
def sparseErase {α : Type} (l : List (Nat × α)) (n : Nat) : List (Nat × α) :=
  l.filter fun e => decide (e.1 ≠ n)

/-- Place an entry before the first one with a larger number. -/
def sparsePlace {α : Type} (n : Nat) (v : α) : List (Nat × α) → List (Nat × α)
  | [] => [(n, v)]
  | (k, u) :: l => if n < k then (n, v) :: (k, u) :: l else (k, u) :: sparsePlace n v l

/-- The table with the content of a number replaced or added. -/
def sparseInsert {α : Type} (l : List (Nat × α)) (n : Nat) (v : α) : List (Nat × α) :=
  sparsePlace n v (sparseErase l n)

/-- The content of a number in a table whose default is `d`. -/
def sparseGet {α : Type} (d : α) (l : List (Nat × α)) (n : Nat) : α :=
  (sparseLookup l n).getD d

/-- The table, of default `d`, with the content of a number replaced; the default is not listed. -/
def sparseSet {α : Type} [DecidableEq α] (d : α) (l : List (Nat × α)) (n : Nat) (v : α) : List (Nat × α) :=
  if v = d then sparseErase l n else sparseInsert l n v

/-- The numbers of the table are strictly rising. -/
abbrev sparseSorted {α : Type} (l : List (Nat × α)) : Prop :=
  l.Pairwise fun p q => p.1 < q.1

end Sys2Proof.Machine
end

