-- ==== Sys2Proof/Config.lean ====
section
/-! DEFINITION. What an installation of MIX fixes and what the spec leaves open (spec/92_eei_decisions.md, parameters left open):
the parameters, the free values (constants with no body), the character code. -/

namespace Sys2Proof

/-- The parameters of one MIX (00_scope.md R4, 47_input_output.md R351, R357, 48_conversion.md R391). They are plain data that a
state carries and no step changes, so a statement about every state is a statement about every MIX. -/
structure Params where
  /-- `b`, the byte size, 64..100 (00_scope.md R4). -/
  byteSize : Nat
  /-- `DIGIT0`, the character code of the digit 0 (48_conversion.md R391). -/
  digit0 : Nat
  /-- The units `u` with `installed(u)` (47_input_output.md R351). -/
  installed : List Nat
  /-- The pairs `(u, code)` with `accepts(u, code)` false (47_input_output.md R357). -/
  rejected : List (Nat × Nat)
  deriving DecidableEq, Repr

/-- Free value: the sign of the `n`-th free word (42_arithmetic.md R164, "undefined information"; log 9). -/
opaque Config.freeSign : Nat → Sign

/-- Free value: the `k`-th byte of the `n`-th free word, before it is brought below the byte size (42_arithmetic.md R164; log 9). -/
opaque Config.freeByte : Nat → Nat → Nat

/-- Free value: whether the `n`-th draw of {on, unchanged} turns the overflow toggle on (48_conversion.md R390; log 10). -/
opaque Config.freeBit : Nat → Bool

/-- Free value: how many processor steps the `n`-th operation of the input-output units takes, "somewhat later"
(47_input_output.md R361; log 11). -/
opaque Config.transferDelay : Nat → Nat

/-- `CHARCODE`: the characters of the codes 0, 1, 2, ... in order (47_input_output.md R356; PRESUMED, the spec's own general
knowledge, log 18). Codes past the end of the list have no character. -/
def Config.charCode : List String :=
  ["space", "A", "B", "C", "D", "E", "F", "G", "H", "I"] ++
  ["theta", "J", "K", "L", "M", "N", "O", "P", "Q", "R"] ++
  ["phi", "pi", "S", "T", "U", "V", "W", "X", "Y", "Z"] ++
  ["0", "1", "2", "3", "4", "5", "6", "7", "8", "9"] ++
  [".", ",", "(", ")", "+", "-", "*", "/", "=", "$"] ++
  ["<", ">", "@", ";", ":", "'"]

/-- A code that `CHARCODE` defines (47_input_output.md R356, R357). -/
def Config.charDefined (code : Nat) : Bool :=
  decide (code < Config.charCode.length)

/-- `accepts(u, code)` restricted to the defined codes: the codes an input unit can deliver (47_input_output.md R357). -/
def Params.delivers (p : Params) (u code : Nat) : Bool :=
  Config.charDefined code && !(p.rejected.contains (u, code))

end Sys2Proof
end

