-- ==== Sys2Proof/Machine/State.lean ====
section
/-! DEFINITION. The state of MIX as plain data (spec/10_state.md, spec/47_input_output.md sections 3 and 6): what a step reads and
writes, the faults (spec/60_exceptions.md R402), the refusals, and the state after reset. No field has a function type; cells, tapes
and disk blocks are lists of (number, content) in one canonical form (Machine/Sparse.lean). -/

namespace Sys2Proof.Machine

/-- The 4000 memory cells (20_memory.md R50) as pairs (cell number, word): numbers strictly rising, no word +0. A cell that is not
listed holds +0 (DESIGN CHOICE, log 5). The cell, a word, is MIX's smallest addressable unit (log 6). -/
abbrev Memory := List (Nat × Word)

/-- A block of a word unit: 100 words (47_input_output.md R353). -/
abbrev Block := List Word

/-- The index registers rI1 to rI6 (10_state.md R23). -/
structure Indexes where
  i1 : Short
  i2 : Short
  i3 : Short
  i4 : Short
  i5 : Short
  i6 : Short
  deriving DecidableEq, Repr

/-- The comparison indicator (10_state.md R26). -/
inductive Comparison where
  | less
  | equal
  | greater
  deriving DecidableEq, Repr

/-- A magnetic tape: `recs[u]` and `pos[u]`, the number of records before the head (47_input_output.md R360). -/
structure Tape where
  recs : List Block
  pos : Nat
  deriving DecidableEq, Repr

/-- What the printer has printed: a line of 120 byte values, or a page break (47_input_output.md R367, R375). -/
inductive Printed where
  | line (chars : List Nat)
  | pageBreak
  deriving DecidableEq, Repr

/-- The media of the units (47_input_output.md R358, R360, R375). -/
structure Media where
  /-- The tapes 0..7, by unit; a tape that is not listed is empty, at position 0. -/
  tapes : List (Nat × Tape)
  /-- The disks and drums 8..15, by unit: for each its blocks by number; a block that is not listed holds 100 words +0 (log 8). -/
  disks : List (Nat × List (Nat × Block))
  /-- `deck`: the cards of the card reader, 80 codes each. -/
  deck : List (List Nat)
  /-- `next`: the number of the next card. -/
  nextCard : Nat
  /-- `punched`: the cards of the card punch, 80 byte values each, the oldest first. -/
  punched : List (List Nat)
  /-- `printed`: the printer's output, the oldest first. -/
  printed : List Printed
  /-- `ptape`: the blocks of the paper tape, 70 codes each. -/
  ptape : List (List Nat)
  /-- `ppos`: the number of the next block of the paper tape. -/
  ppos : Nat
  /-- `typed`: the blocks of the typewriter, 70 byte values each, the oldest first. -/
  typed : List (List Nat)
  deriving DecidableEq, Repr

/-- The operation a busy unit performs (47_input_output.md R359): an IN with the first cell of the block it owns and the words still
to be delivered, an OUT with the first cell of the block it owns, or an IOC. -/
inductive Operation where
  | input (start : Nat) (words : List Word)
  | output (start : Nat)
  | control
  deriving DecidableEq, Repr

/-- `pending[u]` of a busy unit: the operation, the block selected on a disk or drum (10_state.md R28, 47_input_output.md R358, R359;
none on the other units), and the model's own schedule: how many processor steps pass before `complete(u)` (log 11). -/
structure Pending where
  op : Operation
  block : Option Nat
  wait : Nat
  deriving DecidableEq, Repr

/-- The state of MIX. -/
structure State where
  /-- The parameters of this MIX; no step changes them (00_scope.md R4, R5). -/
  params : Params
  /-- The A-register (10_state.md R21). -/
  rA : Word
  /-- The X-register (10_state.md R22). -/
  rX : Word
  /-- The index registers (10_state.md R23). -/
  rI : Indexes
  /-- The J-register: its magnitude, two bytes; "its sign is always +" (10_state.md R24). -/
  rJ : Nat
  /-- The overflow toggle OV, on or off (10_state.md R25). -/
  ov : Bool
  /-- The comparison indicator CI (10_state.md R26). -/
  ci : Comparison
  /-- The memory cells (10_state.md R27). -/
  mem : Memory
  /-- The location counter, P of the instruction to be executed; 4000 after the last cell (10_state.md R29, R30). -/
  pc : Nat
  /-- Whether HLT has stopped the processor (10_state.md R31). -/
  halted : Bool
  /-- The busy units, by unit: `busy[u]` is whether `u` is listed (10_state.md R28, 47_input_output.md R359). -/
  pending : List (Nat × Pending)
  /-- The media of the units (47_input_output.md R358, R360, R375). -/
  media : Media
  /-- The model's input queue of the operator: for each HLT to come, how many idle steps pass before the operator restarts the
  machine; when the list is empty the operator does not (46_miscellaneous.md R339, log 14). -/
  restarts : List Nat
  /-- The model's counter of the draws already made from the free values (log 9). -/
  draws : Nat
  deriving DecidableEq, Repr

/-- The faults of 60_exceptions.md R402, complete. A fault is terminal and leaves the state before the instruction (R401, R405), so it
is an outcome of the step and no field. `loc` is P, the location of the instruction. All are safe: a real MIX goes on in some way the
source does not give, and nothing can be proved of a run past a fault. -/
inductive Fault where
  /-- A cell number outside 0..3999; raised by the fetch and by every instruction in which M refers to a cell. Safe. -/
  | memoryAddress (loc : Nat) (cell : Int)
  /-- C and F select no instruction; raised by the decode. Safe. -/
  | illegalInstruction (loc c f : Nat)
  /-- The I byte is 7 or more; raised by every instruction but NOP, NUM, CHAR. Safe. -/
  | invalidIndex (loc ix : Nat)
  /-- The magnitude of the address plus index is b^2 or more; raised by every instruction but NOP, NUM, CHAR. Safe. -/
  | indexedAddressOverflow (loc : Nat) (sum : Int)
  /-- F is no allowable field; raised by loads, stores, arithmetic and comparisons. Safe. -/
  | invalidField (loc f : Nat)
  /-- A floating-point operation; raised by ADD, SUB, MUL and DIV with F = 6. Safe. -/
  | floatingPointNotModelled (loc c : Nat)
  /-- The magnitude for an index register is b^2 or more; raised by LDi, LDiN, INCi, DECi. Safe. -/
  | indexOverflow (loc : Nat) (value : Int)
  /-- A shift by a negative M; raised by the six shifts. Safe. -/
  | negativeShift (loc : Nat) (m : Int)
  /-- F is 20 or more; raised by the five input-output instructions. Safe. -/
  | invalidUnit (loc f : Nat)
  /-- The unit is not installed; raised by the five input-output instructions. Safe. -/
  | unitAbsent (loc unit : Nat)
  /-- IN on a unit that cannot input, or OUT on a unit that cannot output. Safe. -/
  | unitDirection (loc unit : Nat)
  /-- A reference to a block an unfinished IN owns, or a change of a block an unfinished OUT owns; raised by the fetch, by loads,
  stores, arithmetic, comparisons, MOVE, IN and OUT. Safe. -/
  | ioHazard (loc cell unit : Nat)
  /-- Reading or skipping past the record last written; raised by IN and IOC on tapes. Safe. -/
  | tapeImproper (loc unit : Nat)
  /-- No card or block is left to read; raised by IN on units 16 and 19. Safe. -/
  | inputExhausted (loc unit : Nat)
  /-- A control operation the source does not define; raised by IOC. Safe. -/
  | ioControlUndefined (loc unit : Nat) (m : Int)
  deriving DecidableEq, Repr

/-- The refusals. -/
inductive Refusal where
  /-- The instruction has no meaning in this model; raised by an arm of `exec` that rejects it by name. Safe. No arm of this model
  does so. -/
  | notModelled (mnemonic : String)
  deriving DecidableEq, Repr

/-- What one step or one instruction answers. -/
abbrev Result := Host.Outcome State Fault Refusal

/-- The media at reset: the output lists empty, as the spec has them (47_input_output.md R375); no cards, no paper tape, empty tapes
and disk blocks of +0 (DESIGN CHOICE, log 8). -/
def Media.empty : Media where
  tapes := []
  disks := []
  deck := []
  nextCard := 0
  punched := []
  printed := []
  ptape := []
  ppos := 0
  typed := []

/-- The parameters at reset: the binary MIX with every unit (DESIGN CHOICE, log 1, log 7) and the digit 0 at code 30 (PRESUMED, log
18). -/
def State.resetParams : Params where
  byteSize := 64
  digit0 := 30
  installed := [0, 1, 2, 3, 4, 5, 6, 7, 8, 9, 10, 11, 12, 13, 14, 15, 16, 17, 18, 19]
  rejected := []

/-- The machine right after reset. The spec gives a value for `halted` and the output lists only (10_state.md R34,
70_reset_and_hazards.md R430, R431); the others are those that the log names (log 1 to 5, 7, 8, 9, 14, 18). -/
def State.reset : State where
  params := State.resetParams
  rA := Word.plusZero
  rX := Word.plusZero
  rI := ⟨Short.plusZero, Short.plusZero, Short.plusZero, Short.plusZero, Short.plusZero, Short.plusZero⟩
  rJ := 0
  ov := false
  ci := .equal
  mem := []
  pc := 0
  halted := false
  pending := []
  media := Media.empty
  restarts := []
  draws := 0

end Sys2Proof.Machine
end

