-- ==== Sys2Proof/Machine/Units.lean ====
section
/-! DEFINITION. The units 0 to 19 and their media (spec/47_input_output.md sections 1, 2, 6): the table of units, characters and
words, tapes, disks, and what IN takes from a medium and OUT sends to it. -/

namespace Sys2Proof.Machine

/-- `size(u)`: the block size of a unit in words (R350). -/
def unitSize (u : Nat) : Nat :=
  if u ≤ 15 then 100 else if u ≤ 17 then 16 else if u = 18 then 24 else 14

/-- `can_input(u)` (R352). -/
def canInput (u : Nat) : Bool :=
  decide (u ≤ 16) || decide (u = 19)

/-- `can_output(u)` (R352). -/
def canOutput (u : Nat) : Bool :=
  decide (u ≤ 15) || (decide (17 ≤ u) && decide (u ≤ 19))

/-- The words of a block of characters: character 5k + j, counting from 1, is byte j of word k, and every sign is + (R354, R355). -/
def blockOfChars (n : Nat) (cs : List Nat) : List Word :=
  (List.range n).map fun k => wordOfBytes .plus (cs.drop (5 * k))

/-- The byte values of a block in order, without the signs (R354, R355). -/
def charsOfBlock (ws : List Word) : List Nat :=
  ws.flatMap wordBytes

/-- An empty tape at its beginning. -/
def tapeEmpty : Tape := ⟨[], 0⟩

/-- `tape_write`: the records after the head are discarded (R360). -/
def tapeWrite (t : Tape) (block : Block) : Tape :=
  ⟨t.recs.take t.pos ++ [block], t.pos + 1⟩

/-- `tape_read`: the record under the head; none past the record last written (R360). -/
def tapeRead (t : Tape) : Option (Block × Tape) :=
  match t.recs[t.pos]? with
  | some block => some (block, ⟨t.recs, t.pos + 1⟩)
  | none => none

/-- `tape_rewind` (R360). -/
def tapeRewind (t : Tape) : Tape := ⟨t.recs, 0⟩

/-- `tape_back`: to the beginning of the tape at most (R360). -/
def tapeBack (t : Tape) (n : Nat) : Tape := ⟨t.recs, t.pos - n⟩

/-- `tape_forward`: none where fewer than n records follow the head (R360). -/
def tapeForward (t : Tape) (n : Nat) : Option Tape :=
  if t.recs.length < t.pos + n then none else some ⟨t.recs, t.pos + n⟩

/-- The tape of a unit 0..7. -/
def Media.tape (m : Media) (u : Nat) : Tape :=
  sparseGet tapeEmpty m.tapes u

/-- The media with one tape replaced. -/
def Media.setTape (m : Media) (u : Nat) (t : Tape) : Media :=
  { m with tapes := sparseSet tapeEmpty m.tapes u t }

/-- The content of a disk block that is not listed: 100 words +0 (log 8). -/
def blankBlock : Block := List.replicate 100 Word.plusZero

/-- `disk[u][k]` (R358). -/
def Media.diskBlock (m : Media) (u k : Nat) : Block :=
  sparseGet blankBlock (sparseGet [] m.disks u) k

/-- The media with one disk block replaced. -/
def Media.setDiskBlock (m : Media) (u k : Nat) (block : Block) : Media :=
  { m with disks := sparseSet [] m.disks u (sparseSet blankBlock (sparseGet [] m.disks u) k block) }

/-- The block of a disk or drum that rX selects: its bytes 4 and 5 as a number (R358). -/
def diskSelect (b : Nat) (rX : Word) : Nat :=
  rX.b4 * b + rX.b5

/-- The next block that IN takes from the medium of a unit, `k` being the disk block selected, and the media afterwards; none where
the unit has no block left to read (R358, R360, R375). -/
def Media.input (m : Media) (u k : Nat) : Option (List Word × Media) :=
  if u ≤ 7 then
    match tapeRead (m.tape u) with
    | some (block, t) => some (block, m.setTape u t)
    | none => none
  else if u ≤ 15 then
    some (m.diskBlock u k, m)
  else if u = 16 then
    match m.deck[m.nextCard]? with
    | some card => some (blockOfChars (unitSize u) card, { m with nextCard := m.nextCard + 1 })
    | none => none
  else
    match m.ptape[m.ppos]? with
    | some cs => some (blockOfChars (unitSize u) cs, { m with ppos := m.ppos + 1 })
    | none => none

/-- The media after OUT has sent a block to a unit (R358, R360, R375). -/
def Media.output (m : Media) (u k : Nat) (block : List Word) : Media :=
  if u ≤ 7 then m.setTape u (tapeWrite (m.tape u) block)
  else if u ≤ 15 then m.setDiskBlock u k block
  else if u = 17 then { m with punched := m.punched ++ [charsOfBlock block] }
  else if u = 18 then { m with printed := m.printed ++ [.line (charsOfBlock block)] }
  else { m with typed := m.typed ++ [charsOfBlock block] }

end Sys2Proof.Machine
end

