-- ==== Sys2Proof/Machine/Ops.lean ====
section
/-! DEFINITION. The named operations over the state: its updates, the registers, the memory cells, the location counter, and the
checks of spec/60_exceptions.md R403 that an instruction passes through. A check takes what follows it as its last argument, so an
instruction reads as its pseudocode does. MIX takes no exception, saves nothing and returns from none (60_exceptions.md R400, R405,
R406): ending in a fault is the whole of it. -/

namespace Sys2Proof.Machine

/-- rA replaced. -/
def State.setA (s : State) (w : Word) : State := { s with rA := w }

/-- rX replaced. -/
def State.setX (s : State) (w : Word) : State := { s with rX := w }

/-- The index registers replaced. -/
def State.setIndexes (s : State) (r : Indexes) : State := { s with rI := r }

/-- The magnitude of rJ replaced. -/
def State.setJ (s : State) (n : Nat) : State := { s with rJ := n }

/-- OV replaced. -/
def State.setOv (s : State) (v : Bool) : State := { s with ov := v }

/-- CI replaced. -/
def State.setCi (s : State) (c : Comparison) : State := { s with ci := c }

/-- The memory replaced. -/
def State.setMem (s : State) (m : Memory) : State := { s with mem := m }

/-- The location counter replaced. -/
def State.setPc (s : State) (n : Nat) : State := { s with pc := n }

/-- `halted` replaced. -/
def State.setHalted (s : State) (v : Bool) : State := { s with halted := v }

/-- The busy units replaced. -/
def State.setPending (s : State) (p : List (Nat × Pending)) : State := { s with pending := p }

/-- The media replaced. -/
def State.setMedia (s : State) (m : Media) : State := { s with media := m }

/-- The operator's queue replaced. -/
def State.setRestarts (s : State) (r : List Nat) : State := { s with restarts := r }

/-- The counter of draws replaced. -/
def State.setDraws (s : State) (n : Nat) : State := { s with draws := n }

/-- The byte size `b` (00_scope.md R4). -/
def State.b (s : State) : Nat := s.params.byteSize

/-- `pc ← P + 1` (45_jump.md R250). -/
def State.advance (s : State) : State := s.setPc (s.pc + 1)

/-- The content of an index register (10_state.md R23). -/
def Indexes.get (r : Indexes) : Idx → Short
  | .i1 => r.i1
  | .i2 => r.i2
  | .i3 => r.i3
  | .i4 => r.i4
  | .i5 => r.i5
  | .i6 => r.i6

/-- One index register replaced. -/
def Indexes.set (r : Indexes) (n : Idx) (h : Short) : Indexes :=
  match n with
  | .i1 => { r with i1 := h }
  | .i2 => { r with i2 := h }
  | .i3 => { r with i3 := h }
  | .i4 => { r with i4 := h }
  | .i5 => { r with i5 := h }
  | .i6 => { r with i6 := h }

/-- rI{i} (10_state.md R23). -/
def State.index (s : State) (n : Idx) : Short := s.rI.get n

/-- The state with rI{i} replaced. -/
def State.setIndex (s : State) (n : Idx) (h : Short) : State := s.setIndexes (s.rI.set n h)

/-- The value that the I byte adds to the address: nothing for 0, rI{i} for 1 to 6 (30_encoding.md R83); 7 and more do not come
here. -/
def State.indexVal (s : State) (ix : Nat) : Int :=
  match ix with
  | 1 => shortVal s.b (s.index .i1)
  | 2 => shortVal s.b (s.index .i2)
  | 3 => shortVal s.b (s.index .i3)
  | 4 => shortVal s.b (s.index .i4)
  | 5 => shortVal s.b (s.index .i5)
  | 6 => shortVal s.b (s.index .i6)
  | _ => 0

/-- A register as a word; an index register has bytes 1, 2, 3 zero (10_state.md R23). -/
def State.regWord (s : State) : Reg → Word
  | .a => s.rA
  | .x => s.rX
  | .i n => shortAsWord (s.index n)

/-- The value of a register. -/
def State.regVal (s : State) (r : Reg) : Int := wordVal s.b (s.regWord r)

/-- `MemRead(n, 1)` of a cell that exists (20_memory.md R53). -/
def Memory.read (m : Memory) (n : Nat) : Word :=
  sparseGet Word.plusZero m n

/-- `MemWrite(n, 1, w)` of a cell that exists (20_memory.md R53). -/
def Memory.write (m : Memory) (n : Nat) (w : Word) : Memory :=
  sparseSet Word.plusZero m n w

/-- The cells `n`, `n + 1`, ... replaced by words. -/
def Memory.writeBlock (m : Memory) (n : Nat) : List Word → Memory
  | [] => m
  | w :: l => (m.write n w).writeBlock (n + 1) l

/-- The words of `n` cells from `lo`. -/
def Memory.readBlock (m : Memory) (lo n : Nat) : List Word :=
  (List.range n).map fun k => m.read (lo + k)

/-- The loop of MOVE: `n` words from `src` to `dst`, one at a time in ascending order (46_miscellaneous.md R330). -/
def Memory.moveWords (m : Memory) (src dst : Nat) : Nat → Memory
  | 0 => m
  | n + 1 => (m.write dst (m.read src)).moveWords (src + 1) (dst + 1) n

/-- The canonical form of a memory: cell numbers strictly rising and below 4000, no entry +0. -/
abbrev Memory.wf (m : Memory) : Prop :=
  sparseSorted m ∧ ∀ e ∈ m, e.1 < 4000 ∧ e.2 ≠ Word.plusZero

/-- The word in a cell. -/
def State.cell (s : State) (n : Nat) : Word := s.mem.read n

/-- One cell replaced. -/
def State.setCell (s : State) (n : Nat) (w : Word) : State := s.setMem (s.mem.write n w)

/-- The check that M is a cell number (20_memory.md R53; JUMPCHECK of 45_jump.md R251). -/
def withCell (m : Int) (s : State) (k : Nat → Result) : Result :=
  if 0 ≤ m ∧ m ≤ 3999 then k m.toNat else .fault (.memoryAddress s.pc m)

/-- The check that the `n` cells from M on exist; the first cell that does not is reported (20_memory.md R53, log 16). -/
def withBlock (m : Int) (n : Nat) (s : State) (k : Nat → Result) : Result :=
  if 0 ≤ m ∧ m + n ≤ 4000 then k m.toNat
  else .fault (.memoryAddress s.pc (if 0 ≤ m ∧ m ≤ 3999 then 4000 else m))

/-- The first cell of the block that an operation owns, against reading and changing for an IN, against changing for an OUT
(47_input_output.md R372). -/
def Operation.owns (changing : Bool) : Operation → Option Nat
  | .input start _ => some start
  | .output start => if changing then some start else none
  | .control => none

/-- The first of the `n` cells from `lo` that the operation of a unit owns, with the unit (47_input_output.md R372). -/
def ownedCell (changing : Bool) (lo n : Nat) (e : Nat × Pending) : Option (Nat × Nat) :=
  match e.2.op.owns changing with
  | some start =>
    if start < lo + n ∧ lo < start + unitSize e.1 then some (max lo start, e.1) else none
  | none => none

/-- A cell and unit of an `IOHazard` on the `n` cells from `lo`, the lowest unit first (47_input_output.md R372, log 16). -/
def State.hazard (s : State) (changing : Bool) (lo n : Nat) : Option (Nat × Nat) :=
  s.pending.findSome? (ownedCell changing lo n)

/-- The check for an `IOHazard` (47_input_output.md R372): `changing` for a write, else a read. -/
def withoutHazard (changing : Bool) (lo n : Nat) (s : State) (k : Result) : Result :=
  match s.hazard changing lo n with
  | some (cell, unit) => .fault (.ioHazard s.pc cell unit)
  | none => k

/-- `busy[u]` (47_input_output.md R359). -/
def State.busy (s : State) (u : Nat) : Bool := (sparseLookup s.pending u).isSome

/-- `installed(u)` (47_input_output.md R351). -/
def State.installed (s : State) (u : Nat) : Bool := s.params.installed.contains u

/-- The checks on a unit number (47_input_output.md R373). -/
def withUnit (u : Nat) (s : State) (k : Result) : Result :=
  if u > 19 then .fault (.invalidUnit s.pc u)
  else if s.installed u then k
  else .fault (.unitAbsent s.pc u)

/-- The check on the direction of a unit (47_input_output.md R352, R373). -/
def withDirection (able : Bool) (u : Nat) (s : State) (k : Result) : Result :=
  if able then k else .fault (.unitDirection s.pc u)

/-- `hold until not busy[u]`: a held instruction changes nothing and is retried (47_input_output.md R362, 60_exceptions.md R403); the
hold is a next state (DESIGN CHOICE, log 13). -/
def whenReady (u : Nat) (s : State) (k : Result) : Result :=
  if s.busy u then .next s else k

/-- The block of a disk or drum that rX selects: its bytes 4 and 5 as a number; the other units have none (47_input_output.md
R358). -/
def State.diskBlock (s : State) (u : Nat) : Option Nat :=
  if 8 ≤ u ∧ u ≤ 15 then some (diskSelect s.b s.rX) else none

/-- The unit becomes busy with an operation; the free value of log 11 says for how many processor steps (47_input_output.md R359,
R361). -/
def State.start (s : State) (u : Nat) (op : Operation) : State :=
  (s.setPending (sparseInsert s.pending u ⟨op, s.diskBlock u, Config.transferDelay s.draws⟩)).setDraws (s.draws + 1)

/-- The `k`-th free word from here, a word of byte size `b` (42_arithmetic.md R164, log 9). -/
def State.freeWord (s : State) (k : Nat) : Word :=
  ⟨Config.freeSign (s.draws + k), Config.freeByte (s.draws + k) 1 % s.b, Config.freeByte (s.draws + k) 2 % s.b,
    Config.freeByte (s.draws + k) 3 % s.b, Config.freeByte (s.draws + k) 4 % s.b, Config.freeByte (s.draws + k) 5 % s.b⟩

/-- `JUMP(saveJ = true)` (45_jump.md R251). -/
def State.jumpTo (s : State) (target : Nat) : State := (s.setJ (s.pc + 1)).setPc target

end Sys2Proof.Machine
end

