-- ==== Sys2Proof/Machine/Transfer.lean ====
section
/-! DEFINITION. The transfer agents of the units (spec/47_input_output.md R361), the model's schedule of them (log 11, 12), and the
computer operator (spec/46_miscellaneous.md R339, log 14). -/

namespace Sys2Proof.Machine

/-- The memory after `complete(u)`: an IN's words are written, an OUT and an IOC write none (47_input_output.md R361). -/
def Operation.deliver (op : Operation) (m : Memory) : Memory :=
  match op with
  | .input start words => m.writeBlock start words
  | .output _ => m
  | .control => m

/-- `complete(u)` (47_input_output.md R361); a unit that is not busy has nothing to complete. -/
def State.complete (s : State) (u : Nat) : State :=
  match sparseLookup s.pending u with
  | some p => (s.setMem (p.op.deliver s.mem)).setPending (sparseErase s.pending u)
  | none => s

/-- The lowest unit whose operation ends now (log 11, 12). -/
def State.due (s : State) : Option Nat :=
  (s.pending.find? fun e => decide (e.2.wait = 0)).map Prod.fst

/-- One processor step passes for the busy units (log 11). -/
def State.tick (s : State) : State :=
  s.setPending (s.pending.map fun e => (e.1, ⟨e.2.op, e.2.block, e.2.wait - 1⟩))

/-- A step of a halted machine: the operator restarts it, or it idles (46_miscellaneous.md R339, log 14). -/
def State.operate (s : State) : State :=
  match s.restarts with
  | [] => s
  | 0 :: l => (s.setRestarts l).setHalted false
  | (n + 1) :: l => s.setRestarts (n :: l)

end Sys2Proof.Machine
end

