-- ==== Sys2Proof/Machine/Cycle.lean ====
section
/-! DEFINITION. The instruction cycle (spec/30_encoding.md R97) and the turn of the agents (spec/00_scope.md R10, log 11, 12, 14),
over the meaning `run` of the instructions; the word put where the next instruction is fetched. -/

namespace Sys2Proof.Machine

/-- Fetch and decode: `MemoryAddress(P)`, `IOHazard` on cell P, `IllegalInstruction(C, F)`, in this order (30_encoding.md R97,
60_exceptions.md R403). -/
def withInstruction (s : State) (k : Instr → Result) : Result :=
  withCell s.pc s fun p =>
  withoutHazard false p 1 s <|
  match decode (s.cell p) with
  | .ok i => k i
  | .error (.illegal c f) => .fault (.illegalInstruction s.pc c f)

/-- A processor step: the operator's turn when the machine is halted, else one instruction (30_encoding.md R97, 10_state.md R31). -/
def processorStep (run : Instr → State → Result) (s : State) : Result :=
  if s.halted then .next s.operate else withInstruction s fun i => run i s

/-- One step: `complete(u)` of a unit whose operation ends now, else a processor step, which passes for the busy units too (log 11,
12). -/
def cycle (run : Instr → State → Result) (s : State) : Result :=
  match s.due with
  | some u => .next (s.complete u)
  | none => processorStep run s.tick

/-- A word put into cell `pc` of a machine that is not halted and in which no transfer ends before the next processor step. -/
def State.placeWord (s : State) (w : Word) : State :=
  ((s.setCell s.pc w).setHalted false).setPending (s.pending.map fun e => (e.1, ⟨e.2.op, e.2.block, max e.2.wait 1⟩))

end Sys2Proof.Machine
end

