-- ==== Sys2Proof/Machine/Flags.lean ====
section
/-! DEFINITION. The computations on OV and CI: the addition law and its overflow (spec/42_arithmetic.md R166), comparing
(spec/44_comparison.md R230), and the conditions of the jumps (spec/45_jump.md R256 to R262). -/

namespace Sys2Proof.Machine

/-- ADDTO: the register after `v` is added to it (42_arithmetic.md R166). -/
def addResult (b : Nat) (w : Word) (v : Int) : Word :=
  let r := wordVal b w + v
  if r = 0 then wordOfMag b w.sign 0
  else if r.natAbs < wordSize b then wordOfMag b (Sign.ofInt r) r.natAbs
  else wordOfMag b (Sign.ofInt r) (r.natAbs - wordSize b)

/-- ADDTO: whether the addition overflows (42_arithmetic.md R166). -/
def addOverflows (b : Nat) (w : Word) (v : Int) : Bool :=
  decide (wordSize b ≤ (wordVal b w + v).natAbs)

/-- OV turned on where asked, else left as it is. -/
def State.raiseOv (s : State) (overflow : Bool) : State := s.setOv (s.ov || overflow)

/-- The comparison of two numbers; minus zero equals plus zero (44_comparison.md R230, 00_scope.md R8). -/
def compareVals (x y : Int) : Comparison :=
  if x < y then .less else if x = y then .equal else .greater

/-- Whether CI meets the condition of a jump (45_jump.md R256 to R261). -/
def ciHolds (c : Comparison) : CiCond → Bool
  | .l => decide (c = .less)
  | .e => decide (c = .equal)
  | .g => decide (c = .greater)
  | .ge => decide (c ≠ .less)
  | .ne => decide (c ≠ .equal)
  | .le => decide (c ≠ .greater)

/-- Whether a register's value meets the condition of a jump; both zeros are zero (45_jump.md R262). -/
def condHolds (v : Int) : Cond → Bool
  | .n => decide (v < 0)
  | .z => decide (v = 0)
  | .p => decide (0 < v)
  | .nn => decide (0 ≤ v)
  | .nz => decide (v ≠ 0)
  | .np => decide (v ≤ 0)

end Sys2Proof.Machine
end

