-- ==== Sys2Proof/Machine/Operands.lean ====
section
/-! DEFINITION. The operand forms: the indexed address M and its sign (spec/30_encoding.md R82 to R85), fields in the load view and
the store view (spec/20_memory.md R55 to R57), the operand V of loads, arithmetic and comparisons (spec/42_arithmetic.md R160). -/

namespace Sys2Proof.Machine

/-- AA: the magnitude that the two address bytes denote (30_encoding.md R82). -/
def addrMag (b : Nat) (a : Addr) : Nat := a.a1 * b + a.a2

/-- `±AA + val(rI[I])` (30_encoding.md R83). -/
def addrSum (a : Addr) (s : State) : Int := a.sign.apply (addrMag s.b a) + s.indexVal a.ix

/-- The indexed address M, with the checks of the instruction cycle: `InvalidIndex`, then `IndexedAddressOverflow` (30_encoding.md
R84, R93, R97). -/
def withM (a : Addr) (s : State) (k : Int → Result) : Result :=
  if a.ix > 6 then .fault (.invalidIndex s.pc a.ix)
  else if (addrSum a s).natAbs ≥ s.b ^ 2 then .fault (.indexedAddressOverflow s.pc (addrSum a s))
  else k (addrSum a s)

/-- `Msign`: the sign of the instruction when M = 0, else the sign of M (30_encoding.md R85). -/
def addrSign (a : Addr) (m : Int) : Sign := if m = 0 then a.sign else Sign.ofInt m

/-- F is 8L + R of an allowable field (20_memory.md R57, 00_scope.md R9). -/
def fieldOk (f : Nat) : Bool := decide (f / 8 ≤ f % 8) && decide (f % 8 ≤ 5)

/-- The check on a field specification (20_memory.md R57). -/
def withField (f : Nat) (s : State) (k : Result) : Result :=
  if fieldOk f then k else .fault (.invalidField s.pc f)

/-- The load view `field(w, F)` (20_memory.md R55): the bytes of the field at the right-hand end, + where the sign is no part of it. -/
def loadField (w : Word) (f : Nat) : Word :=
  let bytes := ((wordBytes w).take (f % 8)).drop (max (f / 8) 1 - 1)
  wordOfBytes (if f / 8 = 0 then w.sign else .plus) (List.replicate (5 - bytes.length) 0 ++ bytes)

/-- The store view `store_field(old, r, F)` (20_memory.md R56): as many bytes as the field has, from the right-hand end of r, put in
the place of the field. -/
def storeField (old r : Word) (f : Nat) : Word :=
  wordOfBytes (if f / 8 = 0 then r.sign else old.sign)
    ((wordBytes old).take (max (f / 8) 1 - 1) ++ (wordBytes r).drop (5 - (f % 8 + 1 - max (f / 8) 1)) ++
      (wordBytes old).drop (f % 8))

/-- The operand V of loads, arithmetic and comparisons: the field F of CONTENTS(M) (42_arithmetic.md R160, 60_exceptions.md R403). -/
def withOperand (a : Addr) (f : Nat) (s : State) (k : Word → Result) : Result :=
  withM a s fun m =>
  withField f s <|
  withCell m s fun c =>
  withoutHazard false c 1 s <|
  k (loadField (s.cell c) f)

/-- The word with the opposite sign where asked (40_loading.md R119, 43_address_transfer.md R180). -/
def negateIf (neg : Bool) (w : Word) : Word :=
  if neg then { w with sign := w.sign.neg } else w

/-- What a storing instruction stores, as a word; rJ has the sign + and bytes 1, 2, 3 zero (41_storing.md R140, R149, R150). -/
def State.storedWord (s : State) : StoreSource → Word
  | .reg r => s.regWord r
  | .j => shortAsWord (shortOfMag s.b .plus s.rJ)
  | .zero => Word.plusZero

end Sys2Proof.Machine
end

