-- ==== Sys2Proof/Machine/Arith.lean ====
section
/-! DEFINITION. The arithmetic operators (spec/42_arithmetic.md) and their floating-point rows. -/

namespace Sys2Proof.Machine

/-- ADDTO on rA with the value `v` (42_arithmetic.md R166). -/
def addToA (v : Int) (s : State) : State :=
  (s.setA (addResult s.b s.rA v)).raiseOv (addOverflows s.b s.rA v)

/-- ADDTO on rX with the value `v` (42_arithmetic.md R166). -/
def addToX (v : Int) (s : State) : State :=
  (s.setX (addResult s.b s.rX v)).raiseOv (addOverflows s.b s.rX v)

/-- The algebraic sign of a product or a quotient, from the sign positions (42_arithmetic.md R163, R164). -/
def productSign (s t : Sign) : Sign := if s = t then .plus else .minus

/-- rA and rX after a multiplication by V (42_arithmetic.md R163). -/
def multiply (v : Word) (s : State) : State :=
  let p := wordMag s.b s.rA * wordMag s.b v
  let sign := productSign s.rA.sign v.sign
  (s.setA (wordOfMag s.b sign (p / wordSize s.b))).setX (wordOfMag s.b sign (p % wordSize s.b))

/-- rA, rX and OV after a division by V; after an overflow rA and rX hold free words (42_arithmetic.md R164, log 9). -/
def divide (v : Word) (s : State) : State :=
  if wordMag s.b v = 0 ∨ wordMag s.b v ≤ wordMag s.b s.rA then
    (((s.setA (s.freeWord 0)).setX (s.freeWord 1)).setDraws (s.draws + 2)).setOv true
  else
    let n := wordMag s.b s.rA * wordSize s.b + wordMag s.b s.rX
    (s.setA (wordOfMag s.b (productSign s.rA.sign v.sign) (n / wordMag s.b v))).setX
      (wordOfMag s.b s.rA.sign (n % wordMag s.b v))

/-- A floating-point operation: only the checks of the instruction cycle, then the fault that carries C (42_arithmetic.md R165,
60_exceptions.md R403, log 23). -/
def floatingStop (c : Nat) (a : Addr) (s : State) : Result :=
  withM a s fun _ => .fault (.floatingPointNotModelled s.pc c)

/-- ADD (42_arithmetic.md R161). -/
def execAdd (a : Addr) (f : Nat) (s : State) : Result :=
  withOperand a f s fun v => .next (addToA (wordVal s.b v) s).advance

/-- SUB (42_arithmetic.md R162). -/
def execSub (a : Addr) (f : Nat) (s : State) : Result :=
  withOperand a f s fun v => .next (addToA (-(wordVal s.b v)) s).advance

/-- MUL (42_arithmetic.md R163). -/
def execMul (a : Addr) (f : Nat) (s : State) : Result :=
  withOperand a f s fun v => .next (multiply v s).advance

/-- DIV (42_arithmetic.md R164). -/
def execDiv (a : Addr) (f : Nat) (s : State) : Result :=
  withOperand a f s fun v => .next (divide v s).advance

/-- FADD (42_arithmetic.md R165). -/
def execFadd (a : Addr) (s : State) : Result :=
  floatingStop 1 a s

/-- FSUB (42_arithmetic.md R165). -/
def execFsub (a : Addr) (s : State) : Result :=
  floatingStop 2 a s

/-- FMUL (42_arithmetic.md R165). -/
def execFmul (a : Addr) (s : State) : Result :=
  floatingStop 3 a s

/-- FDIV (42_arithmetic.md R165). -/
def execFdiv (a : Addr) (s : State) : Result :=
  floatingStop 4 a s

end Sys2Proof.Machine
end

