-- ==== Sys2Proof/Machine/AddressTransfer.lean ====
section
/-! DEFINITION. The address transfer operators (spec/43_address_transfer.md R180 to R213). -/

namespace Sys2Proof.Machine

/-- A register replaced by the word or short of a sign and a magnitude (43_address_transfer.md R180). -/
def enterReg (r : Reg) (sign : Sign) (mag : Nat) (s : State) : State :=
  match r with
  | .a => s.setA (wordOfMag s.b sign mag)
  | .x => s.setX (wordOfMag s.b sign mag)
  | .i n => s.setIndex n (shortOfMag s.b sign mag)

/-- ENTER: M, or with `neg` its negative, replaces a register; M = 0 has the sign of the instruction (43_address_transfer.md
R180). -/
def enter (r : Reg) (neg : Bool) (a : Addr) (s : State) : Result :=
  withM a s fun m =>
  .next (enterReg r (if neg then (addrSign a m).neg else addrSign a m) m.natAbs s).advance

/-- ADDTOINDEX on the value `v` (43_address_transfer.md R213). -/
def addToIndex (n : Idx) (v : Int) (s : State) : Result :=
  let r := shortVal s.b (s.index n) + v
  if r.natAbs ≥ s.b ^ 2 then .fault (.indexOverflow s.pc r)
  else .next (s.setIndex n (shortOfMag s.b (if r = 0 then (s.index n).sign else Sign.ofInt r) r.natAbs)).advance

/-- INC and, with `neg`, DEC: M is added to or subtracted from a register, by ADDTO on rA and rX (42_arithmetic.md R166) and ADDTOINDEX
on an index register (43_address_transfer.md R213). -/
def increase (r : Reg) (neg : Bool) (a : Addr) (s : State) : Result :=
  withM a s fun m =>
  match r with
  | .a => .next (addToA (if neg then -m else m) s).advance
  | .x => .next (addToX (if neg then -m else m) s).advance
  | .i n => addToIndex n (if neg then -m else m) s

/-- INCA (43_address_transfer.md R197). -/
def execInca (a : Addr) (s : State) : Result :=
  increase .a false a s

/-- DECA (43_address_transfer.md R205). -/
def execDeca (a : Addr) (s : State) : Result :=
  increase .a true a s

/-- ENTA (43_address_transfer.md R181). -/
def execEnta (a : Addr) (s : State) : Result :=
  enter .a false a s

/-- ENNA (43_address_transfer.md R189). -/
def execEnna (a : Addr) (s : State) : Result :=
  enter .a true a s

/-- INC1 (43_address_transfer.md R198). -/
def execInc1 (a : Addr) (s : State) : Result :=
  increase (.i .i1) false a s

/-- DEC1 (43_address_transfer.md R206). -/
def execDec1 (a : Addr) (s : State) : Result :=
  increase (.i .i1) true a s

/-- ENT1 (43_address_transfer.md R182). -/
def execEnt1 (a : Addr) (s : State) : Result :=
  enter (.i .i1) false a s

/-- ENN1 (43_address_transfer.md R190). -/
def execEnn1 (a : Addr) (s : State) : Result :=
  enter (.i .i1) true a s

/-- INC2 (43_address_transfer.md R199). -/
def execInc2 (a : Addr) (s : State) : Result :=
  increase (.i .i2) false a s

/-- DEC2 (43_address_transfer.md R207). -/
def execDec2 (a : Addr) (s : State) : Result :=
  increase (.i .i2) true a s

/-- ENT2 (43_address_transfer.md R183). -/
def execEnt2 (a : Addr) (s : State) : Result :=
  enter (.i .i2) false a s

/-- ENN2 (43_address_transfer.md R191). -/
def execEnn2 (a : Addr) (s : State) : Result :=
  enter (.i .i2) true a s

/-- INC3 (43_address_transfer.md R200). -/
def execInc3 (a : Addr) (s : State) : Result :=
  increase (.i .i3) false a s

/-- DEC3 (43_address_transfer.md R208). -/
def execDec3 (a : Addr) (s : State) : Result :=
  increase (.i .i3) true a s

/-- ENT3 (43_address_transfer.md R184). -/
def execEnt3 (a : Addr) (s : State) : Result :=
  enter (.i .i3) false a s

/-- ENN3 (43_address_transfer.md R192). -/
def execEnn3 (a : Addr) (s : State) : Result :=
  enter (.i .i3) true a s

/-- INC4 (43_address_transfer.md R201). -/
def execInc4 (a : Addr) (s : State) : Result :=
  increase (.i .i4) false a s

/-- DEC4 (43_address_transfer.md R209). -/
def execDec4 (a : Addr) (s : State) : Result :=
  increase (.i .i4) true a s

/-- ENT4 (43_address_transfer.md R185). -/
def execEnt4 (a : Addr) (s : State) : Result :=
  enter (.i .i4) false a s

/-- ENN4 (43_address_transfer.md R193). -/
def execEnn4 (a : Addr) (s : State) : Result :=
  enter (.i .i4) true a s

/-- INC5 (43_address_transfer.md R202). -/
def execInc5 (a : Addr) (s : State) : Result :=
  increase (.i .i5) false a s

/-- DEC5 (43_address_transfer.md R210). -/
def execDec5 (a : Addr) (s : State) : Result :=
  increase (.i .i5) true a s

/-- ENT5 (43_address_transfer.md R186). -/
def execEnt5 (a : Addr) (s : State) : Result :=
  enter (.i .i5) false a s

/-- ENN5 (43_address_transfer.md R194). -/
def execEnn5 (a : Addr) (s : State) : Result :=
  enter (.i .i5) true a s

/-- INC6 (43_address_transfer.md R203). -/
def execInc6 (a : Addr) (s : State) : Result :=
  increase (.i .i6) false a s

/-- DEC6 (43_address_transfer.md R211). -/
def execDec6 (a : Addr) (s : State) : Result :=
  increase (.i .i6) true a s

/-- ENT6 (43_address_transfer.md R187). -/
def execEnt6 (a : Addr) (s : State) : Result :=
  enter (.i .i6) false a s

/-- ENN6 (43_address_transfer.md R195). -/
def execEnn6 (a : Addr) (s : State) : Result :=
  enter (.i .i6) true a s

/-- INCX (43_address_transfer.md R204). -/
def execIncx (a : Addr) (s : State) : Result :=
  increase .x false a s

/-- DECX (43_address_transfer.md R212). -/
def execDecx (a : Addr) (s : State) : Result :=
  increase .x true a s

/-- ENTX (43_address_transfer.md R188). -/
def execEntx (a : Addr) (s : State) : Result :=
  enter .x false a s

/-- ENNX (43_address_transfer.md R196). -/
def execEnnx (a : Addr) (s : State) : Result :=
  enter .x true a s

end Sys2Proof.Machine
end

