-- ==== Sys2Proof/Machine/Compare.lean ====
section
/-! DEFINITION. The comparison operators (spec/44_comparison.md R230 to R238). -/

namespace Sys2Proof.Machine

/-- COMPARE: CI from the field F of a register against the field F of CONTENTS(M), as numbers (44_comparison.md R230, 20_memory.md
R58). -/
def compareReg (r : Reg) (a : Addr) (f : Nat) (s : State) : Result :=
  withOperand a f s fun v =>
  .next (s.setCi (compareVals (wordVal s.b (loadField (s.regWord r) f)) (wordVal s.b v))).advance

/-- CMPA (44_comparison.md R231). -/
def execCmpa (a : Addr) (f : Nat) (s : State) : Result :=
  compareReg .a a f s

/-- CMP1 (44_comparison.md R232). -/
def execCmp1 (a : Addr) (f : Nat) (s : State) : Result :=
  compareReg (.i .i1) a f s

/-- CMP2 (44_comparison.md R233). -/
def execCmp2 (a : Addr) (f : Nat) (s : State) : Result :=
  compareReg (.i .i2) a f s

/-- CMP3 (44_comparison.md R234). -/
def execCmp3 (a : Addr) (f : Nat) (s : State) : Result :=
  compareReg (.i .i3) a f s

/-- CMP4 (44_comparison.md R235). -/
def execCmp4 (a : Addr) (f : Nat) (s : State) : Result :=
  compareReg (.i .i4) a f s

/-- CMP5 (44_comparison.md R236). -/
def execCmp5 (a : Addr) (f : Nat) (s : State) : Result :=
  compareReg (.i .i5) a f s

/-- CMP6 (44_comparison.md R237). -/
def execCmp6 (a : Addr) (f : Nat) (s : State) : Result :=
  compareReg (.i .i6) a f s

/-- CMPX (44_comparison.md R238). -/
def execCmpx (a : Addr) (f : Nat) (s : State) : Result :=
  compareReg .x a f s

end Sys2Proof.Machine
end

