-- ==== Sys2Proof/Machine/Jump.lean ====
section
/-! DEFINITION. The jump operators (spec/45_jump.md R250 to R310). -/

namespace Sys2Proof.Machine

/-- JUMPCHECK, then the jump that saves J where `taken` says so, else the next instruction, from the state `t` (45_jump.md R251). -/
def jumpWhen (taken : Bool) (a : Addr) (s t : State) : Result :=
  withM a s fun m =>
  withCell m s fun target =>
  .next (if taken then t.jumpTo target else t.advance)

/-- The six jumps on CI (45_jump.md R256 to R261). -/
def jumpOnCi (c : CiCond) (a : Addr) (s : State) : Result :=
  jumpWhen (ciHolds s.ci c) a s s

/-- The jumps on the value of a register (45_jump.md R262). -/
def jumpOnReg (r : Reg) (c : Cond) (a : Addr) (s : State) : Result :=
  jumpWhen (condHolds (s.regVal r) c) a s s

/-- JMP (45_jump.md R252). -/
def execJmp (a : Addr) (s : State) : Result :=
  jumpWhen true a s s

/-- JSJ (45_jump.md R253). -/
def execJsj (a : Addr) (s : State) : Result :=
  withM a s fun m =>
  withCell m s fun target =>
  .next (s.setPc target)

/-- JOV (45_jump.md R254): taken when OV is on; OV is off afterwards. -/
def execJov (a : Addr) (s : State) : Result :=
  jumpWhen s.ov a s (s.setOv false)

/-- JNOV (45_jump.md R255): taken when OV is off; OV is off afterwards. -/
def execJnov (a : Addr) (s : State) : Result :=
  jumpWhen (!s.ov) a s (s.setOv false)

/-- JL (45_jump.md R256). -/
def execJl (a : Addr) (s : State) : Result :=
  jumpOnCi .l a s

/-- JE (45_jump.md R257). -/
def execJe (a : Addr) (s : State) : Result :=
  jumpOnCi .e a s

/-- JG (45_jump.md R258). -/
def execJg (a : Addr) (s : State) : Result :=
  jumpOnCi .g a s

/-- JGE (45_jump.md R259). -/
def execJge (a : Addr) (s : State) : Result :=
  jumpOnCi .ge a s

/-- JNE (45_jump.md R260). -/
def execJne (a : Addr) (s : State) : Result :=
  jumpOnCi .ne a s

/-- JLE (45_jump.md R261). -/
def execJle (a : Addr) (s : State) : Result :=
  jumpOnCi .le a s

/-- JAN (45_jump.md R263). -/
def execJan (a : Addr) (s : State) : Result :=
  jumpOnReg .a .n a s

/-- JAZ (45_jump.md R264). -/
def execJaz (a : Addr) (s : State) : Result :=
  jumpOnReg .a .z a s

/-- JAP (45_jump.md R265). -/
def execJap (a : Addr) (s : State) : Result :=
  jumpOnReg .a .p a s

/-- JANN (45_jump.md R266). -/
def execJann (a : Addr) (s : State) : Result :=
  jumpOnReg .a .nn a s

/-- JANZ (45_jump.md R267). -/
def execJanz (a : Addr) (s : State) : Result :=
  jumpOnReg .a .nz a s

/-- JANP (45_jump.md R268). -/
def execJanp (a : Addr) (s : State) : Result :=
  jumpOnReg .a .np a s

/-- J1N (45_jump.md R275). -/
def execJ1n (a : Addr) (s : State) : Result :=
  jumpOnReg (.i .i1) .n a s

/-- J1Z (45_jump.md R276). -/
def execJ1z (a : Addr) (s : State) : Result :=
  jumpOnReg (.i .i1) .z a s

/-- J1P (45_jump.md R277). -/
def execJ1p (a : Addr) (s : State) : Result :=
  jumpOnReg (.i .i1) .p a s

/-- J1NN (45_jump.md R278). -/
def execJ1nn (a : Addr) (s : State) : Result :=
  jumpOnReg (.i .i1) .nn a s

/-- J1NZ (45_jump.md R279). -/
def execJ1nz (a : Addr) (s : State) : Result :=
  jumpOnReg (.i .i1) .nz a s

/-- J1NP (45_jump.md R280). -/
def execJ1np (a : Addr) (s : State) : Result :=
  jumpOnReg (.i .i1) .np a s

/-- J2N (45_jump.md R281). -/
def execJ2n (a : Addr) (s : State) : Result :=
  jumpOnReg (.i .i2) .n a s

/-- J2Z (45_jump.md R282). -/
def execJ2z (a : Addr) (s : State) : Result :=
  jumpOnReg (.i .i2) .z a s

/-- J2P (45_jump.md R283). -/
def execJ2p (a : Addr) (s : State) : Result :=
  jumpOnReg (.i .i2) .p a s

/-- J2NN (45_jump.md R284). -/
def execJ2nn (a : Addr) (s : State) : Result :=
  jumpOnReg (.i .i2) .nn a s

/-- J2NZ (45_jump.md R285). -/
def execJ2nz (a : Addr) (s : State) : Result :=
  jumpOnReg (.i .i2) .nz a s

/-- J2NP (45_jump.md R286). -/
def execJ2np (a : Addr) (s : State) : Result :=
  jumpOnReg (.i .i2) .np a s

/-- J3N (45_jump.md R287). -/
def execJ3n (a : Addr) (s : State) : Result :=
  jumpOnReg (.i .i3) .n a s

/-- J3Z (45_jump.md R288). -/
def execJ3z (a : Addr) (s : State) : Result :=
  jumpOnReg (.i .i3) .z a s

/-- J3P (45_jump.md R289). -/
def execJ3p (a : Addr) (s : State) : Result :=
  jumpOnReg (.i .i3) .p a s

/-- J3NN (45_jump.md R290). -/
def execJ3nn (a : Addr) (s : State) : Result :=
  jumpOnReg (.i .i3) .nn a s

/-- J3NZ (45_jump.md R291). -/
def execJ3nz (a : Addr) (s : State) : Result :=
  jumpOnReg (.i .i3) .nz a s

/-- J3NP (45_jump.md R292). -/
def execJ3np (a : Addr) (s : State) : Result :=
  jumpOnReg (.i .i3) .np a s

/-- J4N (45_jump.md R293). -/
def execJ4n (a : Addr) (s : State) : Result :=
  jumpOnReg (.i .i4) .n a s

/-- J4Z (45_jump.md R294). -/
def execJ4z (a : Addr) (s : State) : Result :=
  jumpOnReg (.i .i4) .z a s

/-- J4P (45_jump.md R295). -/
def execJ4p (a : Addr) (s : State) : Result :=
  jumpOnReg (.i .i4) .p a s

/-- J4NN (45_jump.md R296). -/
def execJ4nn (a : Addr) (s : State) : Result :=
  jumpOnReg (.i .i4) .nn a s

/-- J4NZ (45_jump.md R297). -/
def execJ4nz (a : Addr) (s : State) : Result :=
  jumpOnReg (.i .i4) .nz a s

/-- J4NP (45_jump.md R298). -/
def execJ4np (a : Addr) (s : State) : Result :=
  jumpOnReg (.i .i4) .np a s

/-- J5N (45_jump.md R299). -/
def execJ5n (a : Addr) (s : State) : Result :=
  jumpOnReg (.i .i5) .n a s

/-- J5Z (45_jump.md R300). -/
def execJ5z (a : Addr) (s : State) : Result :=
  jumpOnReg (.i .i5) .z a s

/-- J5P (45_jump.md R301). -/
def execJ5p (a : Addr) (s : State) : Result :=
  jumpOnReg (.i .i5) .p a s

/-- J5NN (45_jump.md R302). -/
def execJ5nn (a : Addr) (s : State) : Result :=
  jumpOnReg (.i .i5) .nn a s

/-- J5NZ (45_jump.md R303). -/
def execJ5nz (a : Addr) (s : State) : Result :=
  jumpOnReg (.i .i5) .nz a s

/-- J5NP (45_jump.md R304). -/
def execJ5np (a : Addr) (s : State) : Result :=
  jumpOnReg (.i .i5) .np a s

/-- J6N (45_jump.md R305). -/
def execJ6n (a : Addr) (s : State) : Result :=
  jumpOnReg (.i .i6) .n a s

/-- J6Z (45_jump.md R306). -/
def execJ6z (a : Addr) (s : State) : Result :=
  jumpOnReg (.i .i6) .z a s

/-- J6P (45_jump.md R307). -/
def execJ6p (a : Addr) (s : State) : Result :=
  jumpOnReg (.i .i6) .p a s

/-- J6NN (45_jump.md R308). -/
def execJ6nn (a : Addr) (s : State) : Result :=
  jumpOnReg (.i .i6) .nn a s

/-- J6NZ (45_jump.md R309). -/
def execJ6nz (a : Addr) (s : State) : Result :=
  jumpOnReg (.i .i6) .nz a s

/-- J6NP (45_jump.md R310). -/
def execJ6np (a : Addr) (s : State) : Result :=
  jumpOnReg (.i .i6) .np a s

/-- JXN (45_jump.md R269). -/
def execJxn (a : Addr) (s : State) : Result :=
  jumpOnReg .x .n a s

/-- JXZ (45_jump.md R270). -/
def execJxz (a : Addr) (s : State) : Result :=
  jumpOnReg .x .z a s

/-- JXP (45_jump.md R271). -/
def execJxp (a : Addr) (s : State) : Result :=
  jumpOnReg .x .p a s

/-- JXNN (45_jump.md R272). -/
def execJxnn (a : Addr) (s : State) : Result :=
  jumpOnReg .x .nn a s

/-- JXNZ (45_jump.md R273). -/
def execJxnz (a : Addr) (s : State) : Result :=
  jumpOnReg .x .nz a s

/-- JXNP (45_jump.md R274). -/
def execJxnp (a : Addr) (s : State) : Result :=
  jumpOnReg .x .np a s

end Sys2Proof.Machine
end

