-- ==== Sys2Proof/Machine/InputOutput.lean ====
section
/-! DEFINITION. The input-output operators (spec/47_input_output.md R362 to R373). F is the unit. -/

namespace Sys2Proof.Machine

/-- The next block of the medium of a unit and the media afterwards; where there is none, `TapeImproper` on a tape and
`InputExhausted` on the card reader and the paper tape (47_input_output.md R362). -/
def withInput (u : Nat) (s : State) (k : List Word → Media → Result) : Result :=
  match s.media.input u (diskSelect s.b s.rX) with
  | some (words, media) => k words media
  | none => if u ≤ 7 then .fault (.tapeImproper s.pc u) else .fault (.inputExhausted s.pc u)

/-- `control(u, M)` (47_input_output.md R365, R366, R367, R370, R371). -/
def withControl (u : Nat) (m : Int) (s : State) (k : Media → Result) : Result :=
  if u ≤ 7 then
    if m = 0 then k (s.media.setTape u (tapeRewind (s.media.tape u)))
    else if m < 0 then k (s.media.setTape u (tapeBack (s.media.tape u) m.natAbs))
    else
      match tapeForward (s.media.tape u) m.natAbs with
      | some t => k (s.media.setTape u t)
      | none => .fault (.tapeImproper s.pc u)
  else if u = 16 ∨ u = 17 ∨ m ≠ 0 then .fault (.ioControlUndefined s.pc u m)
  else if u ≤ 15 then k s.media
  else if u = 18 then k { s.media with printed := s.media.printed ++ [.pageBreak] }
  else k { s.media with ppos := 0 }

/-- IN (47_input_output.md R362). -/
def execInp (a : Addr) (f : Nat) (s : State) : Result :=
  withM a s fun m =>
  withUnit f s <|
  withDirection (canInput f) f s <|
  withBlock m (unitSize f) s fun start =>
  whenReady f s <|
  withoutHazard true start (unitSize f) s <|
  withInput f s fun words media =>
  .next ((s.setMedia media).start f (.input start words)).advance

/-- OUT (47_input_output.md R363). -/
def execOut (a : Addr) (f : Nat) (s : State) : Result :=
  withM a s fun m =>
  withUnit f s <|
  withDirection (canOutput f) f s <|
  withBlock m (unitSize f) s fun start =>
  whenReady f s <|
  withoutHazard false start (unitSize f) s <|
  .next ((s.setMedia
    (s.media.output f (diskSelect s.b s.rX) (s.mem.readBlock start (unitSize f)))).start f (.output start)).advance

/-- IOC (47_input_output.md R364). -/
def execIoc (a : Addr) (f : Nat) (s : State) : Result :=
  withM a s fun m =>
  withUnit f s <|
  whenReady f s <|
  withControl f m s fun media =>
  .next ((s.setMedia media).start f .control).advance

/-- The jump on a unit: the checks on the unit come before JUMPCHECK (47_input_output.md R368, R369, R373). -/
def jumpOnUnit (taken : Bool) (a : Addr) (f : Nat) (s : State) : Result :=
  withM a s fun m =>
  withUnit f s <|
  withCell m s fun target =>
  .next (if taken then s.jumpTo target else s.advance)

/-- JRED (47_input_output.md R368). -/
def execJred (a : Addr) (f : Nat) (s : State) : Result :=
  jumpOnUnit (!s.busy f) a f s

/-- JBUS (47_input_output.md R369). -/
def execJbus (a : Addr) (f : Nat) (s : State) : Result :=
  jumpOnUnit (s.busy f) a f s

end Sys2Proof.Machine
end

