-- ==== Sys2Proof/Machine/Load.lean ====
section
/-! DEFINITION. The loading operators (spec/40_loading.md R110 to R127). -/

namespace Sys2Proof.Machine

/-- The word `w` put into a register; an index register takes two bytes, and a larger magnitude is `IndexOverflow` (40_loading.md
R110, 60_exceptions.md R402). -/
def putLoaded (r : Reg) (w : Word) (s : State) : Result :=
  match r with
  | .a => .next (s.setA w).advance
  | .x => .next (s.setX w).advance
  | .i n =>
    if wordMag s.b w ≥ s.b ^ 2 then .fault (.indexOverflow s.pc (wordVal s.b w))
    else .next (s.setIndex n (shortOfMag s.b w.sign (wordMag s.b w))).advance

/-- LOAD and, with `neg`, LOADNEG: the field of CONTENTS(M), or its negative, replaces a register (40_loading.md R110, R119). -/
def loadInto (r : Reg) (neg : Bool) (a : Addr) (f : Nat) (s : State) : Result :=
  withOperand a f s fun v => putLoaded r (negateIf neg v) s

/-- LDA (40_loading.md R111). -/
def execLda (a : Addr) (f : Nat) (s : State) : Result :=
  loadInto .a false a f s

/-- LD1 (40_loading.md R112). -/
def execLd1 (a : Addr) (f : Nat) (s : State) : Result :=
  loadInto (.i .i1) false a f s

/-- LD2 (40_loading.md R113). -/
def execLd2 (a : Addr) (f : Nat) (s : State) : Result :=
  loadInto (.i .i2) false a f s

/-- LD3 (40_loading.md R114). -/
def execLd3 (a : Addr) (f : Nat) (s : State) : Result :=
  loadInto (.i .i3) false a f s

/-- LD4 (40_loading.md R115). -/
def execLd4 (a : Addr) (f : Nat) (s : State) : Result :=
  loadInto (.i .i4) false a f s

/-- LD5 (40_loading.md R116). -/
def execLd5 (a : Addr) (f : Nat) (s : State) : Result :=
  loadInto (.i .i5) false a f s

/-- LD6 (40_loading.md R117). -/
def execLd6 (a : Addr) (f : Nat) (s : State) : Result :=
  loadInto (.i .i6) false a f s

/-- LDX (40_loading.md R118). -/
def execLdx (a : Addr) (f : Nat) (s : State) : Result :=
  loadInto .x false a f s

/-- LDAN (40_loading.md R120). -/
def execLdan (a : Addr) (f : Nat) (s : State) : Result :=
  loadInto .a true a f s

/-- LD1N (40_loading.md R121). -/
def execLd1n (a : Addr) (f : Nat) (s : State) : Result :=
  loadInto (.i .i1) true a f s

/-- LD2N (40_loading.md R122). -/
def execLd2n (a : Addr) (f : Nat) (s : State) : Result :=
  loadInto (.i .i2) true a f s

/-- LD3N (40_loading.md R123). -/
def execLd3n (a : Addr) (f : Nat) (s : State) : Result :=
  loadInto (.i .i3) true a f s

/-- LD4N (40_loading.md R124). -/
def execLd4n (a : Addr) (f : Nat) (s : State) : Result :=
  loadInto (.i .i4) true a f s

/-- LD5N (40_loading.md R125). -/
def execLd5n (a : Addr) (f : Nat) (s : State) : Result :=
  loadInto (.i .i5) true a f s

/-- LD6N (40_loading.md R126). -/
def execLd6n (a : Addr) (f : Nat) (s : State) : Result :=
  loadInto (.i .i6) true a f s

/-- LDXN (40_loading.md R127). -/
def execLdxn (a : Addr) (f : Nat) (s : State) : Result :=
  loadInto .x true a f s

end Sys2Proof.Machine
end

