-- ==== Sys2Proof/Machine/Misc.lean ====
section
/-! DEFINITION. MOVE, the shifts, NOP and HLT (spec/46_miscellaneous.md), NUM and CHAR (spec/48_conversion.md). -/

namespace Sys2Proof.Machine

/-- The bytes of a list moved `k` places to the left, zeros entering on the right (46_miscellaneous.md R332, R334). -/
def shiftLeft (k : Nat) (l : List Nat) : List Nat := l.drop k ++ List.replicate (min k l.length) 0

/-- The bytes of a list moved `k` places to the right, zeros entering on the left (46_miscellaneous.md R333, R335). -/
def shiftRight (k : Nat) (l : List Nat) : List Nat := List.replicate (min k l.length) 0 ++ l.take (l.length - k)

/-- The bytes of a list circulated `k` places to the left (46_miscellaneous.md R336). -/
def circulateLeft (k : Nat) (l : List Nat) : List Nat := l.drop (k % l.length) ++ l.take (k % l.length)

/-- The bytes of a list circulated `k` places to the right (46_miscellaneous.md R337). -/
def circulateRight (k : Nat) (l : List Nat) : List Nat :=
  l.drop (l.length - k % l.length) ++ l.take (l.length - k % l.length)

/-- The byte count of a shift (46_miscellaneous.md R331). -/
def withCount (a : Addr) (s : State) (k : Nat → Result) : Result :=
  withM a s fun m =>
  if m < 0 then .fault (.negativeShift s.pc m) else k m.toNat

/-- The five bytes of rA replaced by their shift; the sign stays (46_miscellaneous.md R331). -/
def shiftA (op : List Nat → List Nat) (s : State) : State :=
  s.setA (wordOfBytes s.rA.sign (op (wordBytes s.rA)))

/-- The ten bytes of rA and rX replaced by their shift; the signs stay (46_miscellaneous.md R331). -/
def shiftAX (op : List Nat → List Nat) (s : State) : State :=
  let t := op (wordBytes s.rA ++ wordBytes s.rX)
  (s.setA (wordOfBytes s.rA.sign t)).setX (wordOfBytes s.rX.sign (t.drop 5))

/-- The number that ten character codes denote: each byte modulo 10 is a digit, the first the most significant (48_conversion.md
R390). -/
def digitsValue (l : List Nat) : Nat := l.foldl (fun n t => 10 * n + t % 10) 0

/-- The ten decimal digits of a number, the most significant first, as character codes (48_conversion.md R391). -/
def digitCodes (digit0 n : Nat) : List Nat :=
  [9, 8, 7, 6, 5, 4, 3, 2, 1, 0].map fun j => digit0 + n / 10 ^ j % 10

/-- NUM on the registers; where the number is W or more the free value of log 10 says whether OV is turned on (48_conversion.md
R390). -/
def toNumeric (s : State) : State :=
  let n := digitsValue (wordBytes s.rA ++ wordBytes s.rX)
  let t := s.setA (wordOfMag s.b s.rA.sign (n % wordSize s.b))
  if n < wordSize s.b then t
  else (t.setOv (s.ov || Config.freeBit s.draws)).setDraws (s.draws + 1)

/-- CHAR on the registers (48_conversion.md R391). -/
def toChars (s : State) : State :=
  let t := digitCodes s.params.digit0 (wordMag s.b s.rA)
  (s.setA (wordOfBytes s.rA.sign t)).setX (wordOfBytes s.rX.sign (t.drop 5))

/-- NOP (46_miscellaneous.md R338): F and M are ignored. -/
def execNop (_a : Addr) (_f : Nat) (s : State) : Result :=
  .next s.advance

/-- HLT (46_miscellaneous.md R339). -/
def execHlt (a : Addr) (s : State) : Result :=
  withM a s fun _ => .next (s.setHalted true).advance

/-- MOVE (46_miscellaneous.md R330): F words from M to rI1, the checks before any word is moved. -/
def execMove (a : Addr) (f : Nat) (s : State) : Result :=
  withM a s fun m =>
  if f = 0 then .next s.advance
  else
    withBlock m f s fun src =>
    withBlock (shortVal s.b (s.index .i1)) f s fun dst =>
    withoutHazard false src f s <|
    withoutHazard true dst f s <|
    .next ((s.setMem (s.mem.moveWords src dst f)).setIndex .i1 (shortOfMag s.b .plus (dst + f))).advance

/-- NUM (48_conversion.md R390): M is ignored. -/
def execNum (_a : Addr) (s : State) : Result :=
  .next (toNumeric s).advance

/-- CHAR (48_conversion.md R391): M is ignored. -/
def execChar (_a : Addr) (s : State) : Result :=
  .next (toChars s).advance

/-- SLA (46_miscellaneous.md R332). -/
def execSla (a : Addr) (s : State) : Result :=
  withCount a s fun k => .next (shiftA (shiftLeft k) s).advance

/-- SRA (46_miscellaneous.md R333). -/
def execSra (a : Addr) (s : State) : Result :=
  withCount a s fun k => .next (shiftA (shiftRight k) s).advance

/-- SLAX (46_miscellaneous.md R334). -/
def execSlax (a : Addr) (s : State) : Result :=
  withCount a s fun k => .next (shiftAX (shiftLeft k) s).advance

/-- SRAX (46_miscellaneous.md R335). -/
def execSrax (a : Addr) (s : State) : Result :=
  withCount a s fun k => .next (shiftAX (shiftRight k) s).advance

/-- SLC (46_miscellaneous.md R336). -/
def execSlc (a : Addr) (s : State) : Result :=
  withCount a s fun k => .next (shiftAX (circulateLeft k) s).advance

/-- SRC (46_miscellaneous.md R337). -/
def execSrc (a : Addr) (s : State) : Result :=
  withCount a s fun k => .next (shiftAX (circulateRight k) s).advance

end Sys2Proof.Machine
end

