-- ==== Sys2Proof/Machine/Store.lean ====
section
/-! DEFINITION. The storing operators (spec/41_storing.md R140 to R150). -/

namespace Sys2Proof.Machine

/-- STORE: the field F of cell M replaced from the right-hand bytes of `r` (41_storing.md R140). -/
def storeFrom (r : StoreSource) (a : Addr) (f : Nat) (s : State) : Result :=
  withM a s fun m =>
  withField f s <|
  withCell m s fun c =>
  withoutHazard true c 1 s <|
  .next (s.setCell c (storeField (s.cell c) (s.storedWord r) f)).advance

/-- STA (41_storing.md R141). -/
def execSta (a : Addr) (f : Nat) (s : State) : Result :=
  storeFrom (.reg .a) a f s

/-- ST1 (41_storing.md R142). -/
def execSt1 (a : Addr) (f : Nat) (s : State) : Result :=
  storeFrom (.reg (.i .i1)) a f s

/-- ST2 (41_storing.md R143). -/
def execSt2 (a : Addr) (f : Nat) (s : State) : Result :=
  storeFrom (.reg (.i .i2)) a f s

/-- ST3 (41_storing.md R144). -/
def execSt3 (a : Addr) (f : Nat) (s : State) : Result :=
  storeFrom (.reg (.i .i3)) a f s

/-- ST4 (41_storing.md R145). -/
def execSt4 (a : Addr) (f : Nat) (s : State) : Result :=
  storeFrom (.reg (.i .i4)) a f s

/-- ST5 (41_storing.md R146). -/
def execSt5 (a : Addr) (f : Nat) (s : State) : Result :=
  storeFrom (.reg (.i .i5)) a f s

/-- ST6 (41_storing.md R147). -/
def execSt6 (a : Addr) (f : Nat) (s : State) : Result :=
  storeFrom (.reg (.i .i6)) a f s

/-- STX (41_storing.md R148). -/
def execStx (a : Addr) (f : Nat) (s : State) : Result :=
  storeFrom (.reg .x) a f s

/-- STJ (41_storing.md R149). -/
def execStj (a : Addr) (f : Nat) (s : State) : Result :=
  storeFrom .j a f s

/-- STZ (41_storing.md R150). -/
def execStz (a : Addr) (f : Nat) (s : State) : Result :=
  storeFrom .zero a f s

end Sys2Proof.Machine
end

