-- ==== Sys2Proof/Machine/Step.lean ====
section
/-! DEFINITION. One step of MIX, and the state whose next step runs a given instruction. -/

namespace Sys2Proof.Machine

/-- One step (00_scope.md R10, 30_encoding.md R97): the cycle of Machine/Cycle.lean over `exec`. -/
def step (s : State) : Host.Outcome State Fault Refusal :=
  cycle exec s

/-- The state with the instruction word of the bits `w`, `nbits` of them, in the cell that the next step fetches; the machine runs,
and no transfer ends first (log 4). -/
def State.withFetchWord (s : State) (nbits w : Nat) : State :=
  s.placeWord (unpackBits (w % 2 ^ nbits))

end Sys2Proof.Machine
end

