-- ==== Sys2Proof/Safety.lean ====
section
/-! DEFINITION. The words in which claims about runs are stated: when an instruction meets none of the checks of
spec/60_exceptions.md R403, which instructions may write which piece of state (spec/10_state.md R33), what is always true of a MIX
(the invariant), the end of a run, and a run without a fault. -/

namespace Sys2Proof.Machine

/-- The checks of the instruction cycle on I and M pass (30_encoding.md R84, R93). -/
abbrev addrOk (a : Addr) (s : State) : Prop :=
  a.ix ≤ 6 ∧ (addrSum a s).natAbs < s.b ^ 2

/-- M is the cell `c` (20_memory.md R53). -/
abbrev cellOk (a : Addr) (c : Nat) (s : State) : Prop :=
  addrOk a s ∧ addrSum a s = (c : Int) ∧ c ≤ 3999

/-- M is the cell `c`, F is a field, and no transfer forbids the access: a store where `changing`, else a load (60_exceptions.md
R403). -/
abbrev operandOk (changing : Bool) (a : Addr) (f c : Nat) (s : State) : Prop :=
  cellOk a c s ∧ fieldOk f = true ∧ s.hazard changing c 1 = none

/-- The unit exists and is installed (47_input_output.md R373). -/
abbrev unitOk (u : Nat) (s : State) : Prop :=
  u ≤ 19 ∧ s.installed u = true

/-- The block of `n` cells from M is the cells `lo`, `lo + 1`, ... (20_memory.md R53). -/
abbrev blockOk (a : Addr) (lo n : Nat) (s : State) : Prop :=
  addrOk a s ∧ addrSum a s = (lo : Int) ∧ lo + n ≤ 4000

/-- A cell that a unit's unfinished operation owns: against every reference for an IN, against a change for an OUT
(47_input_output.md R372). -/
def State.ownedBy (s : State) (changing : Bool) (c u : Nat) : Prop :=
  ∃ p start, (u, p) ∈ s.pending ∧ p.op.owns changing = some start ∧ start ≤ c ∧ c < start + unitSize u

/-- The instructions that may change rA (10_state.md R33). -/
def writesA (i : Instr) : Prop :=
  (∃ neg a f, i = .load .a neg a f) ∨ (∃ k a f, i = .arith k a f) ∨ (∃ neg a, i = .enter .a neg a) ∨
    (∃ neg a, i = .increase .a neg a) ∨ (∃ k a, i = .shift k a) ∨ (∃ a, i = .num a) ∨ ∃ a, i = .char a

/-- The instructions that may change rX (10_state.md R33). -/
def writesX (i : Instr) : Prop :=
  (∃ neg a f, i = .load .x neg a f) ∨ (∃ a f, i = .mul a f) ∨ (∃ a f, i = .div a f) ∨ (∃ neg a, i = .enter .x neg a) ∨
    (∃ neg a, i = .increase .x neg a) ∨ (∃ a, i = .slax a) ∨ (∃ a, i = .srax a) ∨ (∃ a, i = .slc a) ∨ (∃ a, i = .src a) ∨
    ∃ a, i = .char a

/-- The instructions that may change rI{n} (10_state.md R33). -/
def writesIndex (n : Idx) (i : Instr) : Prop :=
  (∃ neg a f, i = .load (.i n) neg a f) ∨ (∃ neg a, i = .enter (.i n) neg a) ∨ (∃ neg a, i = .increase (.i n) neg a) ∨
    (n = .i1 ∧ ∃ a f, i = .move a f)

/-- The jumps that save the location of the next instruction in rJ when they occur: all but JSJ (10_state.md R24, R33). -/
def savesJ (i : Instr) : Prop :=
  (∃ a, i = .jmp a) ∨ (∃ a, i = .jov a) ∨ (∃ a, i = .jnov a) ∨ (∃ c a, i = .ciJump c a) ∨ (∃ r c a, i = .regJump r c a) ∨
    (∃ a f, i = .jred a f) ∨ ∃ a f, i = .jbus a f

/-- The instructions that may turn OV on (10_state.md R25). -/
def raisesOv (i : Instr) : Prop :=
  (∃ a f, i = .add a f) ∨ (∃ a f, i = .sub a f) ∨ (∃ a f, i = .div a f) ∨ (∃ neg a, i = .increase .a neg a) ∨
    (∃ neg a, i = .increase .x neg a) ∨ ∃ a, i = .num a

/-- The instructions that may change memory when they are executed (20_memory.md R59, R66): the stores and MOVE. -/
def writesMemory (i : Instr) : Prop :=
  (∃ r a f, i = .store r a f) ∨ ∃ a f, i = .move a f

/-- The instructions that start an operation of a unit (47_input_output.md R362, R363, R364). -/
def startsUnit (i : Instr) : Prop :=
  (∃ a f, i = .inp a f) ∨ (∃ a f, i = .out a f) ∨ ∃ a f, i = .ioc a f

/-- The state `t` is `s` after an instruction that writes one register, no flag and no memory, and goes on to the next location. -/
def onlyRegister (r : Reg) (s t : State) : Prop :=
  match r with
  | .a => t = { s with rA := t.rA, pc := s.pc + 1 }
  | .x => t = { s with rX := t.rX, pc := s.pc + 1 }
  | .i n => (∀ k, k ≠ n → t.index k = s.index k) ∧ t = { s with rI := t.rI, pc := s.pc + 1 }

/-- Every byte of a word is a byte (00_scope.md R4, R6). -/
abbrev wordOk (b : Nat) (w : Word) : Prop :=
  w.b1 < b ∧ w.b2 < b ∧ w.b3 < b ∧ w.b4 < b ∧ w.b5 < b

/-- The addition law (42_arithmetic.md R166): what a register `old` and OV `ov` become, `new` and `ov'`, when the number `v` is added, in
terms of the exact sum. -/
def addLaw (b : Nat) (old new : Word) (v : Int) (ov ov' : Bool) : Prop :=
  wordOk b new ∧
    (wordVal b old + v = 0 → new = ⟨old.sign, 0, 0, 0, 0, 0⟩ ∧ ov' = ov) ∧
    (wordVal b old + v ≠ 0 → (wordVal b old + v).natAbs < b ^ 5 → wordVal b new = wordVal b old + v ∧ ov' = ov) ∧
    (b ^ 5 ≤ (wordVal b old + v).natAbs →
      wordMag b new + b ^ 5 = (wordVal b old + v).natAbs ∧ new.sign = Sign.ofInt (wordVal b old + v) ∧ ov' = true)

/-- The `j`-th position of a word, 1 to 5, as the spec numbers the bytes (00_scope.md R7). -/
def byteAt (w : Word) (j : Nat) : Nat := (wordBytes w).getD (j - 1) 0

/-- Both bytes of an index register are bytes (10_state.md R23). -/
abbrev shortOk (b : Nat) (h : Short) : Prop :=
  h.b4 < b ∧ h.b5 < b

/-- A block of a word unit: 100 words (47_input_output.md R353). -/
abbrev wordsOk (b n : Nat) (l : List Word) : Prop :=
  l.length = n ∧ ∀ w ∈ l, wordOk b w

/-- The parameters are those of a MIX (00_scope.md R4, 48_conversion.md R391): the digit codes are bytes and convert back. -/
abbrev paramsOk (p : Params) : Prop :=
  64 ≤ p.byteSize ∧ p.byteSize ≤ 100 ∧ p.digit0 % 10 = 0 ∧ p.digit0 + 9 < p.byteSize

/-- The registers hold words and shorts (10_state.md R21 to R24). -/
abbrev registersOk (s : State) : Prop :=
  wordOk s.b s.rA ∧ wordOk s.b s.rX ∧ shortOk s.b s.rI.i1 ∧ shortOk s.b s.rI.i2 ∧ shortOk s.b s.rI.i3 ∧ shortOk s.b s.rI.i4 ∧
    shortOk s.b s.rI.i5 ∧ shortOk s.b s.rI.i6 ∧ s.rJ < s.b ^ 2

/-- The memory is in canonical form and holds words (20_memory.md R50). -/
abbrev memoryOk (b : Nat) (m : Memory) : Prop :=
  Memory.wf m ∧ ∀ e ∈ m, wordOk b e.2

/-- An operation that IN, OUT or IOC can have started on unit `u` (47_input_output.md R359, R362 to R364): its block lies in memory, an
IN has the words of the block still to deliver, with signs + on a character unit (R354). -/
def operationOk (b u : Nat) (op : Operation) : Bool :=
  match op with
  | .input start words =>
    decide (canInput u = true ∧ start + unitSize u ≤ 4000 ∧ wordsOk b (unitSize u) words ∧
      (16 ≤ u → ∀ w ∈ words, w.sign = .plus))
  | .output start => decide (canOutput u = true ∧ start + unitSize u ≤ 4000)
  | .control => decide (u ≠ 16 ∧ u ≠ 17)

/-- The block that a busy disk or drum works on is one of its `b^2` (47_input_output.md R358). -/
def selectionOk (b u : Nat) (block : Option Nat) : Bool :=
  match block with
  | some k => decide (8 ≤ u ∧ u ≤ 15 ∧ k < b ^ 2)
  | none => decide (u < 8 ∨ 15 < u)

/-- The block of an IN shares no cell with the block of another operation (70_reset_and_hazards.md R434). -/
def apart (e d : Nat × Pending) : Bool :=
  match e.2.op with
  | .input start _ =>
    match d.2.op.owns true with
    | some other => decide (start + unitSize e.1 ≤ other ∨ other + unitSize d.1 ≤ start)
    | none => true
  | .output _ => true
  | .control => true

/-- The busy units: installed units in rising order, each with an operation, the blocks of the INs apart from the others
(47_input_output.md R359, R372). -/
abbrev pendingOk (p : Params) (l : List (Nat × Pending)) : Prop :=
  sparseSorted l ∧
    (∀ e ∈ l, e.1 ≤ 19 ∧ p.installed.contains e.1 = true ∧ operationOk p.byteSize e.1 e.2.op = true ∧
      selectionOk p.byteSize e.1 e.2.block = true) ∧
    ∀ e ∈ l, ∀ d ∈ l, e.1 = d.1 ∨ apart e d = true

/-- The tapes: units 0..7, records of 100 words, the head within them (47_input_output.md R360). -/
abbrev tapesOk (b : Nat) (l : List (Nat × Tape)) : Prop :=
  sparseSorted l ∧ ∀ e ∈ l, e.1 ≤ 7 ∧ e.2 ≠ tapeEmpty ∧ e.2.pos ≤ e.2.recs.length ∧ ∀ r ∈ e.2.recs, wordsOk b 100 r

/-- The disks and drums: units 8..15, blocks 0..b^2-1 of 100 words (47_input_output.md R358). -/
abbrev disksOk (b : Nat) (l : List (Nat × List (Nat × Block))) : Prop :=
  sparseSorted l ∧
    ∀ e ∈ l, 8 ≤ e.1 ∧ e.1 ≤ 15 ∧ e.2 ≠ [] ∧ sparseSorted e.2 ∧ ∀ d ∈ e.2, d.1 < b ^ 2 ∧ d.2 ≠ blankBlock ∧ wordsOk b 100 d.2

/-- A card, a line or a block of `n` byte values (47_input_output.md R357). -/
abbrev charsOk (b n : Nat) (l : List Nat) : Prop :=
  l.length = n ∧ ∀ c ∈ l, c < b

/-- The printer's output: lines of 120 byte values and page breaks (47_input_output.md R375). -/
def printedOk (b : Nat) (p : Printed) : Bool :=
  match p with
  | .line cs => decide (charsOk b 120 cs)
  | .pageBreak => true

/-- The media of the character units; what an input unit holds is a code it can deliver (47_input_output.md R357, R375). -/
abbrev charMediaOk (p : Params) (m : Media) : Prop :=
  (∀ c ∈ m.deck, c.length = 80 ∧ ∀ x ∈ c, p.delivers 16 x = true) ∧ m.nextCard ≤ m.deck.length ∧
    (∀ c ∈ m.punched, charsOk p.byteSize 80 c) ∧ (∀ l ∈ m.printed, printedOk p.byteSize l = true) ∧
    (∀ c ∈ m.ptape, c.length = 70 ∧ ∀ x ∈ c, p.delivers 19 x = true) ∧ m.ppos ≤ m.ptape.length ∧
    ∀ c ∈ m.typed, charsOk p.byteSize 70 c

/-- What is true of every MIX: of the state after reset, and after every step that does not fault. -/
structure State.Inv (s : State) : Prop where
  params : paramsOk s.params
  registers : registersOk s
  memory : memoryOk s.b s.mem
  location : s.pc ≤ 4000
  units : pendingOk s.params s.pending
  tapes : tapesOk s.b s.media.tapes
  disks : disksOk s.b s.media.disks
  chars : charMediaOk s.params s.media

/-- The end of a run: the machine is halted and no unit is busy (70_reset_and_hazards.md R434). -/
abbrev State.ended (s : State) : Prop :=
  s.halted = true ∧ s.pending = []

/-- A run of `k` steps from `s` meets no fault and no refusal, and ends in `t`. -/
abbrev runsTo (k : Nat) (s t : State) : Prop :=
  Sys2Proof.core.run k s = .next t

end Sys2Proof.Machine
end

