-- ==== Sys2Proof/Certificates/Slice0/Obligations.lean ====
section
/-! DEFINITION. The statements for the provers. Each says which rules of spec/ it formalises; where it rests on a decision of the spec
or on a choice of the model, its docstring says so. -/

section

open Sys2Proof Sys2Proof.Machine

/-! ### Encoding -/

/-- Decoding the encoding of a well-formed instruction gives it back, for every instruction and every operand (30_encoding.md R81, R88,
R90; the numbers of the table are PRESUMED, log 17). -/
def Obligations.DecodeOfEncode : Prop :=
  ∀ (b : Nat) (i : Instr), i.wellFormed b = true → decode (encode i) = .ok i

/-- What decodes is the encoding of what it decodes to, and a word whose bytes are bytes decodes to a well-formed instruction: no word
has two readings and no byte is dropped (30_encoding.md R81, R88). -/
def Obligations.EncodeOfDecode : Prop :=
  ∀ (b : Nat) (w : Word) (i : Instr), decode w = .ok i → encode i = w ∧ (wordOk b w → i.wellFormed b = true)

/-- The words that select no instruction are exactly those of the list in 30_encoding.md R91 (the spec's decision D7; the numbers are
PRESUMED, log 17), and the refusal carries their C and F. -/
def Obligations.IllegalWords : Prop :=
  ∀ w : Word,
    (decode w = .error (.illegal w.b5 w.b4) ↔
      (w.b5 = 5 ∧ 3 ≤ w.b4) ∨ (w.b5 = 6 ∧ 6 ≤ w.b4) ∨ (w.b5 = 39 ∧ 10 ≤ w.b4) ∨ (40 ≤ w.b5 ∧ w.b5 ≤ 47 ∧ 6 ≤ w.b4) ∨
        (48 ≤ w.b5 ∧ w.b5 ≤ 55 ∧ 4 ≤ w.b4) ∨ 64 ≤ w.b5) ∧
    ∀ e, decode w = .error e → e = .illegal w.b5 w.b4

/-- The notation `OP ADDRESS,I(F)` on every byte size. Where it denotes a word, the word has the sign, the address and the I written, its
C is that of the row of OPTAB whose name is OP, its F is the selecting F of that row, or else the F written, or else the normal F of the
row, and it decodes. A line denotes a word exactly where OP is the name of a row, and no F is written if the row has a selecting F
(30_encoding.md R82, R90, R99, R100). Most C and selecting F numbers of the table are PRESUMED (log 17), as is the normal F of NOP, MOVE
and the input-output operators (log 28); that a line which writes F after an operator told apart by F denotes nothing is the model's
choice (DESIGN CHOICE, log 28). -/
def Obligations.NotationDenotesWord : Prop :=
  ∀ (b : Nat) (name : String) (sign : Sign) (aa ix : Nat) (f : Option Nat), 0 < b → aa < b ^ 2 →
    (∀ w : Word, assemble b name sign aa ix f = some w →
      w.sign = sign ∧ w.b1 < b ∧ w.b2 < b ∧ w.b1 * b + w.b2 = aa ∧ w.b3 = ix ∧ (∃ i, decode w = .ok i ∧ encode i = w) ∧
        ∀ r ∈ optab, r.name = name →
          w.b5 = r.c ∧ (∀ g, r.sel = some g → w.b4 = g) ∧ (r.sel = none → w.b4 = f.getD r.normalF)) ∧
      ((∃ w, assemble b name sign aa ix f = some w) ↔ ∃ r ∈ optab, r.name = name ∧ (r.sel = none ∨ f = none))

/-- Words written out from the spec's tables decode to what the tables say (30_encoding.md R102, 95_test_vectors.md section 2.1), one
for every family. Most of their C and selecting F numbers are PRESUMED (R90, decision D21 of the spec, log 17): the source gives C of
LDA, IN, OUT, IOC, JRED and JBUS only. -/
def Obligations.SampleWords : Prop :=
  decode ⟨.plus, 31, 16, 2, 3, 8⟩ = .ok (.lda ⟨.plus, 31, 16, 2⟩ 3) ∧
    decode ⟨.plus, 0, 7, 0, 37, 19⟩ = .ok (.ld3n ⟨.plus, 0, 7, 0⟩ 37) ∧
    decode ⟨.plus, 62, 31, 0, 2, 32⟩ = .ok (.stj ⟨.plus, 62, 31, 0⟩ 2) ∧
    decode ⟨.plus, 31, 16, 0, 36, 1⟩ = .ok (.add ⟨.plus, 31, 16, 0⟩ 36) ∧
    decode ⟨.plus, 31, 16, 0, 6, 1⟩ = .ok (.fadd ⟨.plus, 31, 16, 0⟩) ∧
    decode ⟨.plus, 0, 0, 3, 3, 51⟩ = .ok (.enn3 ⟨.plus, 0, 0, 3⟩) ∧
    decode ⟨.minus, 0, 1, 6, 0, 54⟩ = .ok (.inc6 ⟨.minus, 0, 1, 6⟩) ∧
    decode ⟨.plus, 0, 1, 1, 45, 63⟩ = .ok (.cmpx ⟨.plus, 0, 1, 1⟩ 45) ∧
    decode ⟨.plus, 0, 0, 6, 5, 46⟩ = .ok (.j6np ⟨.plus, 0, 0, 6⟩) ∧
    decode ⟨.plus, 0, 0, 0, 9, 39⟩ = .ok (.jle ⟨.plus, 0, 0, 0⟩) ∧
    decode ⟨.plus, 15, 40, 0, 3, 7⟩ = .ok (.move ⟨.plus, 15, 40, 0⟩ 3) ∧
    decode ⟨.plus, 7, 53, 0, 4, 6⟩ = .ok (.slc ⟨.plus, 7, 53, 0⟩) ∧
    decode ⟨.minus, 0, 1, 0, 3, 35⟩ = .ok (.ioc ⟨.minus, 0, 1, 0⟩ 3) ∧
    decode ⟨.plus, 0, 0, 0, 1, 5⟩ = .ok (.char ⟨.plus, 0, 0, 0⟩) ∧
    decode ⟨.plus, 0, 0, 0, 4, 55⟩ = .error (.illegal 55 4)

/-! ### The machine as a whole -/

/-- The state after reset is a MIX (10_state.md R34: the launch state is open; log 1 to 8 name the values of this one). -/
def Obligations.ResetMeetsInvariant : Prop := State.reset.Inv

/-- Every step that does not fault leaves a MIX: words, shorts and bytes stay in their ranges, memory stays canonical, the location
counter stays in 0..4000, tape heads stay on their tapes, the blocks of two transfers stay apart (00_scope.md R4, 10_state.md R20 to R30,
47_input_output.md R358 to R360, R372). -/
def Obligations.StepKeepsInvariant : Prop :=
  ∀ s t : State, s.Inv → step s = .next t → t.Inv

/-- Where no transfer ends and the machine is not halted, a step is the instruction in the cell at the location counter, on the state
in which the transfers are one processor step nearer to their end (30_encoding.md R97; the count of steps is the model's, log 11). -/
def Obligations.StepRunsDecoded : Prop :=
  ∀ (s : State) (i : Instr), s.due = none → s.halted = false → s.pc ≤ 3999 → s.hazard false s.pc 1 = none →
    decode (s.cell s.pc) = .ok i →
      step s = exec i s.tick ∧
        s.tick = { s with pending := s.pending.map fun e => (e.1, { e.2 with wait := e.2.wait - 1 }) }

/-- The other turns: a transfer that ends now is completed and nothing else happens; a halted machine idles, or is restarted by the
operator (46_miscellaneous.md R339, 47_input_output.md R361; the schedule is the model's, log 11, 12, 14). -/
def Obligations.StepOfOtherAgents : Prop :=
  (∀ (s : State) (u : Nat), s.due = some u → step s = .next (s.complete u)) ∧
    (∀ s : State, s.due = none → s.halted = true → s.restarts = [] → step s = .next s.tick) ∧
    (∀ (s : State) (l : List Nat), s.due = none → s.halted = true → s.restarts = 0 :: l →
      step s = .next { s.tick with halted := false, restarts := l }) ∧
    ∀ (s : State) (n : Nat) (l : List Nat), s.due = none → s.halted = true → s.restarts = (n + 1) :: l →
      step s = .next { s.tick with restarts := n :: l }

/-- The faults of the fetch, in their order: past the last cell, a cell that an IN owns, a word that is no instruction (30_encoding.md
R97, 60_exceptions.md R403; decisions D2, D6, D7 of the spec). -/
def Obligations.FetchFaults : Prop :=
  ∀ s : State, s.due = none → s.halted = false →
    (3999 < s.pc → step s = .fault (.memoryAddress s.pc s.pc)) ∧
      (s.pc ≤ 3999 → ∀ c u, s.hazard false s.pc 1 = some (c, u) → step s = .fault (.ioHazard s.pc c u)) ∧
      (s.pc ≤ 3999 → s.hazard false s.pc 1 = none → ∀ c f, decode (s.cell s.pc) = .error (.illegal c f) →
        step s = .fault (.illegalInstruction s.pc c f))

/-- A hazard on some cells is a cell of them that the block of an unfinished operation covers, against every reference for an IN,
against a change only for an OUT (47_input_output.md R372; decision D13 of the spec). -/
def Obligations.HazardMeansOwned : Prop :=
  ∀ (s : State) (changing : Bool) (lo n : Nat), 0 < n →
    (s.hazard changing lo n = none ↔ ∀ c u, lo ≤ c → c < lo + n → ¬ s.ownedBy changing c u) ∧
      ∀ c u, s.hazard changing lo n = some (c, u) → lo ≤ c ∧ c < lo + n ∧ s.ownedBy changing c u

/-- Every instruction that uses M checks I first and the size of M next; NOP, NUM and CHAR ignore the address part (30_encoding.md R84,
R93, R94; decisions D5 and D7 of the spec). -/
def Obligations.AddressChecks : Prop :=
  (∀ (i : Instr) (a : Addr) (s : State), i.address = some a →
    (6 < a.ix → exec i s = .fault (.invalidIndex s.pc a.ix)) ∧
      (a.ix ≤ 6 → s.b ^ 2 ≤ (addrSum a s).natAbs → exec i s = .fault (.indexedAddressOverflow s.pc (addrSum a s)))) ∧
    ∀ (a a' : Addr) (f f' : Nat) (s : State),
      exec (.nop a f) s = exec (.nop a' f') s ∧ exec (.num a) s = exec (.num a') s ∧ exec (.char a) s = exec (.char a') s

/-- The indexed address: the signed number of the two address bytes, plus the index register that I names (30_encoding.md R82, R83). -/
def Obligations.IndexedAddress : Prop :=
  ∀ (a : Addr) (s : State),
    (a.ix = 0 → addrSum a s = a.sign.apply (a.a1 * s.b + a.a2)) ∧
      ∀ k n, (k, n) ∈ [(1, Idx.i1), (2, Idx.i2), (3, Idx.i3), (4, Idx.i4), (5, Idx.i5), (6, Idx.i6)] → a.ix = k →
        addrSum a s = a.sign.apply (a.a1 * s.b + a.a2) + (s.index n).sign.apply ((s.index n).b4 * s.b + (s.index n).b5)

/-- The checks of an instruction with a memory operand and a field, in their order: the field, the cell, the transfer (20_memory.md R53,
R57, 60_exceptions.md R403; decisions D3 and D4 of the spec). Loads, arithmetic and comparisons read; stores change. -/
def Obligations.OperandChecks : Prop :=
  ∀ (i : Instr) (changing : Bool) (a : Addr) (f : Nat) (s : State),
    (changing = false ∧ ((∃ r neg, i = .load r neg a f) ∨ (f ≠ 6 ∧ ∃ k, i = .arith k a f) ∨ ∃ r, i = .compare r a f)) ∨
      (changing = true ∧ ∃ r, i = .store r a f) →
    addrOk a s →
      (fieldOk f = false → exec i s = .fault (.invalidField s.pc f)) ∧
        (fieldOk f = true → (addrSum a s < 0 ∨ 3999 < addrSum a s) → exec i s = .fault (.memoryAddress s.pc (addrSum a s))) ∧
        (fieldOk f = true → ∀ c : Nat, addrSum a s = c → c ≤ 3999 → ∀ d u, s.hazard changing c 1 = some (d, u) →
          exec i s = .fault (.ioHazard s.pc d u))

/-! ### Fields, loads and stores -/

/-- The load view of a field (20_memory.md R55): `field(w, F)` is the word of the sign and the magnitude that the rule gives, for every
byte size and every allowable field; it has the bytes of the field at its right-hand end and zeros to their left. -/
def Obligations.LoadView : Prop :=
  ∀ (b : Nat) (w : Word) (f : Nat), fieldOk f = true → wordOk b w →
    loadField w f = wordOfMag b (if f / 8 = 0 then w.sign else .plus)
        (∑ k ∈ Finset.Icc (max (f / 8) 1) (f % 8), byteAt w k * b ^ (f % 8 - k)) ∧
      ∀ j, j < 5 → byteAt (loadField w f) (5 - j) = if j < f % 8 + 1 - max (f / 8) 1 then byteAt w (f % 8 - j) else 0

/-- The store view of a field (20_memory.md R56): the bytes of the field come from the right-hand end of the register, the others and,
outside the field, the sign are those the cell had. -/
def Obligations.StoreView : Prop :=
  ∀ (old r : Word) (f : Nat), fieldOk f = true →
    (storeField old r f).sign = (if f / 8 = 0 then r.sign else old.sign) ∧
      (∀ j, j < f % 8 + 1 - max (f / 8) 1 → byteAt (storeField old r f) (f % 8 - j) = byteAt r (5 - j)) ∧
      ∀ k, 1 ≤ k → k ≤ 5 → (k < f / 8 ∨ f % 8 < k) → byteAt (storeField old r f) k = byteAt old k

/-- Loading the field that was just stored gives the right-hand bytes of what was stored, with its sign where the field has the sign
(from 20_memory.md R55 and R56). -/
def Obligations.LoadOfStore : Prop :=
  ∀ (b : Nat) (old r : Word) (f : Nat), fieldOk f = true → wordOk b r →
    (loadField (storeField old r f) f).sign = (if f / 8 = 0 then r.sign else .plus) ∧
      wordMag b (loadField (storeField old r f) f) = wordMag b r % b ^ (f % 8 + 1 - max (f / 8) 1)

/-- The sixteen loads: where the field fits the register, it is replaced by the field of CONTENTS(M), or its negative, and nothing else
changes but the location counter; a field too large for an index register is `IndexOverflow` (40_loading.md R110, R119; the fault is
decision D8 of the spec). -/
def Obligations.LoadInstructions : Prop :=
  ∀ (r : Reg) (neg : Bool) (a : Addr) (f c : Nat) (s : State), 64 ≤ s.b → operandOk false a f c s → wordOk s.b (s.cell c) →
    ((∀ n, r = .i n → wordMag s.b (loadField (s.cell c) f) < s.b ^ 2) →
      ∃ t, exec (.load r neg a f) s = .next t ∧ onlyRegister r s t ∧ (∀ n, t.cell n = s.cell n) ∧
        t.regWord r = { loadField (s.cell c) f with
          sign := if neg then (loadField (s.cell c) f).sign.neg else (loadField (s.cell c) f).sign }) ∧
    ((∃ n, r = .i n) → s.b ^ 2 ≤ wordMag s.b (loadField (s.cell c) f) →
      exec (.load r neg a f) s = .fault (.indexOverflow s.pc
        (if neg then -(wordVal s.b (loadField (s.cell c) f)) else wordVal s.b (loadField (s.cell c) f))))

/-- The ten stores: the field of cell M is replaced, every other cell and everything else but the location counter stays. What is stored
is a register as a word, rJ with the sign + and its two bytes on the right, or plus zero (41_storing.md R140, R149, R150). -/
def Obligations.StoreInstructions : Prop :=
  (∀ (r : StoreSource) (a : Addr) (f c : Nat) (s : State), operandOk true a f c s →
    ∃ t, exec (.store r a f) s = .next t ∧ t = { s with mem := t.mem, pc := s.pc + 1 } ∧
      t.cell c = storeField (s.cell c) (s.storedWord r) f ∧ ∀ n, n ≠ c → t.cell n = s.cell n) ∧
    ∀ s : State,
      s.storedWord (.reg .a) = s.rA ∧ s.storedWord (.reg .x) = s.rX ∧
        (∀ n, s.storedWord (.reg (.i n)) = ⟨(s.index n).sign, 0, 0, 0, (s.index n).b4, (s.index n).b5⟩) ∧
        s.storedWord .zero = ⟨.plus, 0, 0, 0, 0, 0⟩ ∧
        (64 ≤ s.b → s.rJ < s.b ^ 2 →
          (s.storedWord .j).sign = .plus ∧ wordMag s.b (s.storedWord .j) = s.rJ ∧ wordOk s.b (s.storedWord .j))

/-! ### Arithmetic -/

/-- The addition law, for the six instructions that follow it: ADD and SUB with the field of CONTENTS(M), INCA, DECA, INCX and DECX with
M (42_arithmetic.md R166). Everything but the register, OV and the location counter stays. -/
def Obligations.AdditionLaw : Prop :=
  (∀ (a : Addr) (f c : Nat) (s : State), 64 ≤ s.b → wordOk s.b s.rA → wordOk s.b (s.cell c) → operandOk false a f c s →
    (∃ t, exec (.add a f) s = .next t ∧ t = { s with rA := t.rA, ov := t.ov, pc := s.pc + 1 } ∧
      addLaw s.b s.rA t.rA (wordVal s.b (loadField (s.cell c) f)) s.ov t.ov) ∧
    ∃ t, exec (.sub a f) s = .next t ∧ t = { s with rA := t.rA, ov := t.ov, pc := s.pc + 1 } ∧
      addLaw s.b s.rA t.rA (-(wordVal s.b (loadField (s.cell c) f))) s.ov t.ov) ∧
    ∀ (neg : Bool) (a : Addr) (s : State), 64 ≤ s.b → wordOk s.b s.rA → wordOk s.b s.rX → addrOk a s →
      (∃ t, exec (.increase .a neg a) s = .next t ∧ t = { s with rA := t.rA, ov := t.ov, pc := s.pc + 1 } ∧
        addLaw s.b s.rA t.rA (if neg then -(addrSum a s) else addrSum a s) s.ov t.ov) ∧
      ∃ t, exec (.increase .x neg a) s = .next t ∧ t = { s with rX := t.rX, ov := t.ov, pc := s.pc + 1 } ∧
        addLaw s.b s.rX t.rX (if neg then -(addrSum a s) else addrSum a s) s.ov t.ov

/-- MUL: rA and rX hold the ten-byte product of the magnitudes, both with the sign of the product taken from the sign positions; OV, CI
and memory stay (42_arithmetic.md R163). -/
def Obligations.MultiplyProduct : Prop :=
  ∀ (a : Addr) (f c : Nat) (s : State), 64 ≤ s.b → wordOk s.b s.rA → wordOk s.b (s.cell c) → operandOk false a f c s →
    ∃ t, exec (.mul a f) s = .next t ∧ t = { s with rA := t.rA, rX := t.rX, pc := s.pc + 1 } ∧
      wordMag s.b t.rA * s.b ^ 5 + wordMag s.b t.rX = wordMag s.b s.rA * wordMag s.b (loadField (s.cell c) f) ∧
      wordOk s.b t.rA ∧ wordOk s.b t.rX ∧ t.rX.sign = t.rA.sign ∧
      (t.rA.sign = .plus ↔ s.rA.sign = (loadField (s.cell c) f).sign)

/-- DIV without overflow: quotient and remainder of the ten-byte magnitude of rA and rX by V, with their signs; OV, CI and memory stay
(42_arithmetic.md R164; the sign of a zero quotient is decision D24 of the spec). -/
def Obligations.DivideQuotient : Prop :=
  ∀ (a : Addr) (f c : Nat) (s : State), 64 ≤ s.b → wordOk s.b s.rX → operandOk false a f c s →
    wordMag s.b s.rA < wordMag s.b (loadField (s.cell c) f) → wordOk s.b (s.cell c) →
      ∃ t, exec (.div a f) s = .next t ∧ t = { s with rA := t.rA, rX := t.rX, pc := s.pc + 1 } ∧
        wordMag s.b t.rA * wordMag s.b (loadField (s.cell c) f) + wordMag s.b t.rX =
          wordMag s.b s.rA * s.b ^ 5 + wordMag s.b s.rX ∧
        wordMag s.b t.rX < wordMag s.b (loadField (s.cell c) f) ∧ t.rX.sign = s.rA.sign ∧
        (t.rA.sign = .plus ↔ s.rA.sign = (loadField (s.cell c) f).sign)

/-- DIV with overflow, a zero divisor among it, is no fault: OV is turned on, rA and rX hold words of which nothing more is said, and
everything else stays (42_arithmetic.md R164; the words are free values, log 9, and hold for every value of them). -/
def Obligations.DivideOverflow : Prop :=
  ∀ (a : Addr) (f c : Nat) (s : State), 64 ≤ s.b → operandOk false a f c s →
    (wordMag s.b (loadField (s.cell c) f) = 0 ∨ wordMag s.b (loadField (s.cell c) f) ≤ wordMag s.b s.rA) →
      ∃ t, exec (.div a f) s = .next t ∧ t = { s with rA := t.rA, rX := t.rX, ov := true, pc := s.pc + 1, draws := t.draws } ∧
        wordOk s.b t.rA ∧ wordOk s.b t.rX

/-- The four floating-point rows stop with `FloatingPointNotModelled` and change nothing; a word with C = 1..4 and F = 6 decodes to them
(42_arithmetic.md R165; decision D15 of the spec). -/
def Obligations.FloatingPointStops : Prop :=
  ∀ (a : Addr) (s : State), addrOk a s →
    exec (.fadd a) s = .fault (.floatingPointNotModelled s.pc 1) ∧ exec (.fsub a) s = .fault (.floatingPointNotModelled s.pc 2) ∧
      exec (.fmul a) s = .fault (.floatingPointNotModelled s.pc 3) ∧ exec (.fdiv a) s = .fault (.floatingPointNotModelled s.pc 4) ∧
      ∀ w : Word, w.b4 = 6 → 1 ≤ w.b5 → w.b5 ≤ 4 → ∃ k, decode w = .ok (.floating k w.addr)

/-! ### Address transfer and comparison -/

/-- ENT and ENN: the register holds M or its negative; where M is 0 its sign is that of the instruction, or the opposite; nothing else
changes but the location counter (43_address_transfer.md R180, 30_encoding.md R85). -/
def Obligations.EnterInstructions : Prop :=
  ∀ (r : Reg) (neg : Bool) (a : Addr) (s : State), 64 ≤ s.b → addrOk a s →
    ∃ t, exec (.enter r neg a) s = .next t ∧ onlyRegister r s t ∧ (∀ n, t.cell n = s.cell n) ∧
      t.regVal r = (if neg then -(addrSum a s) else addrSum a s) ∧
      (addrSum a s = 0 → (t.regWord r).sign = if neg then a.sign.neg else a.sign)

/-- INC and DEC of an index register: the exact sum where it fits two bytes, a zero keeping the sign of the register, OV untouched;
`IndexOverflow` where it does not fit (43_address_transfer.md R213; decisions D8 and D23 of the spec). -/
def Obligations.IncreaseIndex : Prop :=
  ∀ (n : Idx) (neg : Bool) (a : Addr) (s : State), 64 ≤ s.b → addrOk a s →
    ((shortVal s.b (s.index n) + if neg then -(addrSum a s) else addrSum a s).natAbs < s.b ^ 2 →
      ∃ t, exec (.increase (.i n) neg a) s = .next t ∧ onlyRegister (.i n) s t ∧ (∀ k, t.cell k = s.cell k) ∧
        shortVal s.b (t.index n) = (shortVal s.b (s.index n) + if neg then -(addrSum a s) else addrSum a s) ∧
        (shortVal s.b (t.index n) = 0 → (t.index n).sign = (s.index n).sign)) ∧
    (s.b ^ 2 ≤ (shortVal s.b (s.index n) + if neg then -(addrSum a s) else addrSum a s).natAbs →
      exec (.increase (.i n) neg a) s =
        .fault (.indexOverflow s.pc (shortVal s.b (s.index n) + if neg then -(addrSum a s) else addrSum a s)))

/-- The eight comparisons: CI says how the value of the field of the register stands to that of the same field of CONTENTS(M); the field
(0:0) always compares equal; nothing else changes but the location counter (44_comparison.md R230, 20_memory.md R58). -/
def Obligations.CompareInstructions : Prop :=
  ∀ (r : Reg) (a : Addr) (f c : Nat) (s : State), operandOk false a f c s →
    ∃ t, exec (.compare r a f) s = .next t ∧ t = { s with ci := t.ci, pc := s.pc + 1 } ∧
      (t.ci = .less ↔ wordVal s.b (loadField (s.regWord r) f) < wordVal s.b (loadField (s.cell c) f)) ∧
      (t.ci = .equal ↔ wordVal s.b (loadField (s.regWord r) f) = wordVal s.b (loadField (s.cell c) f)) ∧
      (t.ci = .greater ↔ wordVal s.b (loadField (s.cell c) f) < wordVal s.b (loadField (s.regWord r) f)) ∧
      (f = 0 → t.ci = .equal)

/-! ### Jumps -/

/-- JMP saves the location of the next instruction in rJ and goes to M; JSJ goes to M only (45_jump.md R251, R252, R253). -/
def Obligations.PlainJumps : Prop :=
  ∀ (a : Addr) (c : Nat) (s : State), cellOk a c s →
    exec (.jmp a) s = .next { s with rJ := s.pc + 1, pc := c } ∧ exec (.jsj a) s = .next { s with pc := c }

/-- JOV jumps when OV is on, JNOV when it is off, and after either OV is off (45_jump.md R254, R255). -/
def Obligations.OverflowJumps : Prop :=
  ∀ (a : Addr) (c : Nat) (s : State), cellOk a c s →
    exec (.jov a) s =
      .next (if s.ov then { s with ov := false, rJ := s.pc + 1, pc := c } else { s with pc := s.pc + 1 }) ∧
    exec (.jnov a) s =
      .next (if s.ov then { s with ov := false, pc := s.pc + 1 } else { s with rJ := s.pc + 1, pc := c })

/-- The six jumps on CI (45_jump.md R256 to R261): the condition decides between the jump that saves J and the next instruction, and
nothing else changes. -/
def Obligations.ComparisonJumps : Prop :=
  ∀ (cond : CiCond) (a : Addr) (c : Nat) (s : State), cellOk a c s →
    ∃ taken : Bool,
      exec (.ciJump cond a) s = .next (if taken then { s with rJ := s.pc + 1, pc := c } else { s with pc := s.pc + 1 }) ∧
      (taken = true ↔
        (cond = .l ∧ s.ci = .less) ∨ (cond = .e ∧ s.ci = .equal) ∨ (cond = .g ∧ s.ci = .greater) ∨
          (cond = .ge ∧ (s.ci = .greater ∨ s.ci = .equal)) ∨ (cond = .ne ∧ (s.ci = .less ∨ s.ci = .greater)) ∨
          (cond = .le ∧ (s.ci = .less ∨ s.ci = .equal)))

/-- The forty-eight jumps on a register: the condition on its value decides; a zero of either sign is zero (45_jump.md R262; decision
D25 of the spec). -/
def Obligations.RegisterJumps : Prop :=
  ∀ (r : Reg) (cond : Cond) (a : Addr) (c : Nat) (s : State), cellOk a c s →
    ∃ taken : Bool,
      exec (.regJump r cond a) s = .next (if taken then { s with rJ := s.pc + 1, pc := c } else { s with pc := s.pc + 1 }) ∧
      (taken = true ↔
        (cond = .n ∧ s.regVal r < 0) ∨ (cond = .z ∧ s.regVal r = 0) ∨ (cond = .p ∧ 0 < s.regVal r) ∨
          (cond = .nn ∧ 0 ≤ s.regVal r) ∨ (cond = .nz ∧ s.regVal r ≠ 0) ∨ (cond = .np ∧ s.regVal r ≤ 0))

/-- A jump checks its target whether or not it would occur (45_jump.md R251; decision D9 of the spec). -/
def Obligations.JumpTargetChecks : Prop :=
  ∀ (i : Instr) (a : Addr) (s : State),
    i = .jmp a ∨ i = .jsj a ∨ i = .jov a ∨ i = .jnov a ∨ (∃ c, i = .ciJump c a) ∨ (∃ r c, i = .regJump r c a) ∨
      (∃ u, unitOk u s ∧ (i = .jred a u ∨ i = .jbus a u)) →
    addrOk a s → (addrSum a s < 0 ∨ 3999 < addrSum a s) → exec i s = .fault (.memoryAddress s.pc (addrSum a s))

/-! ### Who writes what -/

/-- CI is written by the comparisons only and read by the six jumps on it only: every other instruction leaves it, and does the same
whatever it holds (10_state.md R26). -/
def Obligations.ComparisonIndicatorUse : Prop :=
  ∀ (i : Instr) (s : State),
    ((∀ r a f, i ≠ .compare r a f) → ∀ t, exec i s = .next t → t.ci = s.ci) ∧
      ((∀ c a, i ≠ .ciJump c a) → ∀ v,
        (∀ t, exec i s = .next t → ∃ w, exec i { s with ci := v } = .next { t with ci := w }) ∧
          ∀ e, exec i s = .fault e → exec i { s with ci := v } = .fault e)

/-- rJ is written only by a jump that occurs, JSJ apart, and then holds the location of the next instruction; it is read only by STJ
(10_state.md R24). -/
def Obligations.JumpRegisterUse : Prop :=
  ∀ (i : Instr) (s : State),
    (∀ t, exec i s = .next t → t.rJ = s.rJ ∨ (savesJ i ∧ t.rJ = s.pc + 1)) ∧
      ((∀ a f, i ≠ .stj a f) → ∀ n,
        (∀ t, exec i s = .next t → ∃ m, exec i { s with rJ := n } = .next { t with rJ := m }) ∧
          ∀ e, exec i s = .fault e → exec i { s with rJ := n } = .fault e)

/-- OV is turned on only by ADD, SUB, DIV, INCA, DECA, INCX, DECX and NUM, and turned off only by JOV and JNOV (10_state.md R25). -/
def Obligations.OverflowToggleUse : Prop :=
  ∀ (i : Instr) (s t : State), exec i s = .next t →
    (s.ov = false → t.ov = true → raisesOv i) ∧ (s.ov = true → t.ov = false → ∃ a, i = .jov a ∨ i = .jnov a)

/-- The write column of the table of 10_state.md R33 for the registers, the memory, `halted` and the units: an instruction outside the
list of a piece of state leaves it as it is. Memory is written by the stores and MOVE only, until a transfer ends (20_memory.md R66). -/
def Obligations.WriterTable : Prop :=
  ∀ (i : Instr) (s t : State), exec i s = .next t →
    (¬ writesA i → t.rA = s.rA) ∧ (¬ writesX i → t.rX = s.rX) ∧ (∀ n, ¬ writesIndex n i → t.index n = s.index n) ∧
      (¬ writesMemory i → ∀ n, t.cell n = s.cell n) ∧ ((∀ a, i ≠ .hlt a) → t.halted = s.halted) ∧
      (¬ startsUnit i → t.pending = s.pending ∧ t.media = s.media) ∧ t.params = s.params ∧ t.restarts = s.restarts

/-! ### Miscellaneous -/

/-- MOVE of one word or more: the destination cells are those of the word-by-word loop of 46_miscellaneous.md R330, each word read after
the writes before it; rI1 points past the destination; every other cell and everything else but the location counter stays (the ascending
order is decision D26 of the spec). -/
def Obligations.MoveWords : Prop :=
  ∀ (a : Addr) (f src dst : Nat) (s : State), 64 ≤ s.b → 0 < f → blockOk a src f s → shortVal s.b (s.index .i1) = (dst : Int) →
    dst + f ≤ 4000 → s.hazard false src f = none → s.hazard true dst f = none →
      ∃ t, exec (.move a f) s = .next t ∧ t = { s with mem := t.mem, rI := t.rI, pc := s.pc + 1 } ∧
        (∀ k, k ≠ .i1 → t.index k = s.index k) ∧ (t.index .i1).sign = .plus ∧ shortVal s.b (t.index .i1) = (dst : Int) + f ∧
        (∀ k, k < f → t.cell (dst + k) =
          if src < dst ∧ dst < src + f then s.cell (src + k % (dst - src)) else s.cell (src + k)) ∧
        ∀ n, (n < dst ∨ dst + f ≤ n) → t.cell n = s.cell n

/-- MOVE with F = 0 does nothing, wherever M and rI1 point; else it checks the source block, then the destination block, then the
transfers, all before any word is moved (46_miscellaneous.md R330, 60_exceptions.md R405; which cell is reported is the model's choice,
log 16). -/
def Obligations.MoveChecks : Prop :=
  (∀ (a : Addr) (s : State), addrOk a s → exec (.move a 0) s = .next { s with pc := s.pc + 1 }) ∧
  ∀ (a : Addr) (f : Nat) (s : State), 0 < f → addrOk a s →
    ((addrSum a s < 0 ∨ 4000 < addrSum a s + f) → ∃ c, exec (.move a f) s = .fault (.memoryAddress s.pc c)) ∧
      ∀ src : Nat, addrSum a s = src → src + f ≤ 4000 →
        ((shortVal s.b (s.index .i1) < 0 ∨ 4000 < shortVal s.b (s.index .i1) + f) →
          ∃ c, exec (.move a f) s = .fault (.memoryAddress s.pc c)) ∧
        ∀ dst : Nat, shortVal s.b (s.index .i1) = dst → dst + f ≤ 4000 →
          (s.hazard false src f ≠ none ∨ s.hazard true dst f ≠ none) → ∃ c u, exec (.move a f) s = .fault (.ioHazard s.pc c u)

/-- The four shifts that fill with zeros, as arithmetic on magnitudes, for a count of any size; the signs stay, SLA and SRA leave rX
(46_miscellaneous.md R331 to R335). -/
def Obligations.ZeroFillShifts : Prop :=
  ∀ (a : Addr) (k : Nat) (s : State), 64 ≤ s.b → wordOk s.b s.rA → wordOk s.b s.rX → addrOk a s → addrSum a s = (k : Int) →
    (∃ t, exec (.sla a) s = .next t ∧ t = { s with rA := t.rA, pc := s.pc + 1 } ∧ t.rA.sign = s.rA.sign ∧
      wordMag s.b t.rA = wordMag s.b s.rA * s.b ^ k % s.b ^ 5) ∧
    (∃ t, exec (.sra a) s = .next t ∧ t = { s with rA := t.rA, pc := s.pc + 1 } ∧ t.rA.sign = s.rA.sign ∧
      wordMag s.b t.rA = wordMag s.b s.rA / s.b ^ k) ∧
    (∃ t, exec (.slax a) s = .next t ∧ t = { s with rA := t.rA, rX := t.rX, pc := s.pc + 1 } ∧
      t.rA.sign = s.rA.sign ∧ t.rX.sign = s.rX.sign ∧ wordOk s.b t.rA ∧ wordOk s.b t.rX ∧
      wordMag s.b t.rA * s.b ^ 5 + wordMag s.b t.rX =
        (wordMag s.b s.rA * s.b ^ 5 + wordMag s.b s.rX) * s.b ^ k % s.b ^ 10) ∧
    ∃ t, exec (.srax a) s = .next t ∧ t = { s with rA := t.rA, rX := t.rX, pc := s.pc + 1 } ∧
      t.rA.sign = s.rA.sign ∧ t.rX.sign = s.rX.sign ∧ wordOk s.b t.rA ∧ wordOk s.b t.rX ∧
      wordMag s.b t.rA * s.b ^ 5 + wordMag s.b t.rX = (wordMag s.b s.rA * s.b ^ 5 + wordMag s.b s.rX) / s.b ^ k

/-- The circular shifts move each of the ten bytes of rA and rX by the count modulo ten; the signs stay (46_miscellaneous.md R331, R336,
R337). -/
def Obligations.CircularShifts : Prop :=
  ∀ (a : Addr) (k : Nat) (s : State), addrOk a s → addrSum a s = (k : Int) →
    (∃ t, exec (.slc a) s = .next t ∧ t = { s with rA := t.rA, rX := t.rX, pc := s.pc + 1 } ∧
      t.rA.sign = s.rA.sign ∧ t.rX.sign = s.rX.sign ∧
      ∀ j, j < 10 → (wordBytes t.rA ++ wordBytes t.rX).getD j 0 = (wordBytes s.rA ++ wordBytes s.rX).getD ((j + k) % 10) 0) ∧
    ∃ t, exec (.src a) s = .next t ∧ t = { s with rA := t.rA, rX := t.rX, pc := s.pc + 1 } ∧
      t.rA.sign = s.rA.sign ∧ t.rX.sign = s.rX.sign ∧
      ∀ j, j < 10 → (wordBytes t.rA ++ wordBytes t.rX).getD ((j + k) % 10) 0 = (wordBytes s.rA ++ wordBytes s.rX).getD j 0

/-- SRC k undoes SLC k and SLC k undoes SRC k (46_miscellaneous.md R337). -/
def Obligations.CircularShiftsInverse : Prop :=
  ∀ (a a' : Addr) (s t : State), addrOk a s → addrOk a' t → 0 ≤ addrSum a s → addrSum a' t = addrSum a s →
    (exec (.slc a) s = .next t → ∃ r, exec (.src a') t = .next r ∧ r.rA = s.rA ∧ r.rX = s.rX) ∧
      (exec (.src a) s = .next t → ∃ r, exec (.slc a') t = .next r ∧ r.rA = s.rA ∧ r.rX = s.rX)

/-- A shift by a negative M is `NegativeShift` (46_miscellaneous.md R331; decision D10 of the spec). -/
def Obligations.NegativeShifts : Prop :=
  ∀ (k : ShiftKind) (a : Addr) (s : State), addrOk a s → addrSum a s < 0 →
    exec (.shift k a) s = .fault (.negativeShift s.pc (addrSum a s))

/-- NOP goes on to the next location and does nothing else; HLT halts the machine besides (46_miscellaneous.md R338, R339). -/
def Obligations.NopAndHalt : Prop :=
  (∀ (a : Addr) (f : Nat) (s : State), exec (.nop a f) s = .next { s with pc := s.pc + 1 }) ∧
    ∀ (a : Addr) (s : State), addrOk a s → exec (.hlt a) s = .next { s with halted := true, pc := s.pc + 1 }

/-- NUM: the magnitude of rA is the ten-digit number of the bytes of rA and rX modulo ten, modulo the word size; the sign of rA and rX
stay; OV stays where the number is below the word size, and is otherwise left or turned on, which is free (48_conversion.md R390; the free
value is log 10, decision D12 of the spec). -/
def Obligations.NumericValue : Prop :=
  ∀ (a : Addr) (s : State), 64 ≤ s.b →
    ∃ (t : State) (n : Nat), exec (.num a) s = .next t ∧
      n = ∑ j ∈ Finset.range 10, (wordBytes s.rA ++ wordBytes s.rX).getD j 0 % 10 * 10 ^ (9 - j) ∧
      t = { s with rA := t.rA, ov := t.ov, pc := s.pc + 1, draws := t.draws } ∧
      t.rA.sign = s.rA.sign ∧ wordMag s.b t.rA = n % s.b ^ 5 ∧ (s.ov = true → t.ov = true) ∧
      (n < s.b ^ 5 → t.ov = s.ov ∧ t.draws = s.draws)

/-- CHAR: the ten decimal digits of the magnitude of rA, the most significant first, as character codes in rA and rX; the signs, OV, CI
and memory stay (48_conversion.md R391). -/
def Obligations.CharacterCodes : Prop :=
  ∀ (a : Addr) (s : State),
    ∃ t, exec (.char a) s = .next t ∧ t = { s with rA := t.rA, rX := t.rX, pc := s.pc + 1 } ∧
      t.rA.sign = s.rA.sign ∧ t.rX.sign = s.rX.sign ∧
      ∀ j, j < 10 → (wordBytes t.rA ++ wordBytes t.rX).getD j 0 = s.params.digit0 + wordMag s.b s.rA / 10 ^ (9 - j) % 10

/-- NUM after CHAR restores the magnitude of rA, for every byte size, and leaves OV as it was (48_conversion.md R391). -/
def Obligations.NumericOfCharacters : Prop :=
  ∀ (a a' : Addr) (s : State), paramsOk s.params → wordOk s.b s.rA →
    ∃ t r, exec (.char a) s = .next t ∧ exec (.num a') t = .next r ∧ r.rA = s.rA ∧ r.ov = s.ov

/-! ### Input and output -/

/-- IN on a ready unit: the next block of its medium is taken, the unit is busy with it and owns the block of cells, no cell changes yet,
and the processor goes on (47_input_output.md R362; how long it takes is the model's, log 11; decision D13 of the spec). -/
def Obligations.InputStarts : Prop :=
  ∀ (a : Addr) (u lo : Nat) (words : List Word) (media : Media) (s : State),
    blockOk a lo (unitSize u) s → unitOk u s → canInput u = true → s.busy u = false → s.hazard true lo (unitSize u) = none →
    s.media.input u (s.rX.b4 * s.b + s.rX.b5) = some (words, media) →
      ∃ t p, exec (.inp a u) s = .next t ∧
        t = { s with media := media, pending := t.pending, draws := t.draws, pc := s.pc + 1 } ∧
        sparseLookup t.pending u = some p ∧ p.op = .input lo words ∧ ∀ v, v ≠ u → sparseLookup t.pending v = sparseLookup s.pending v

/-- OUT on a ready unit: the words of the block are sent to its medium, the unit is busy and owns the block, no cell changes, and the
processor goes on (47_input_output.md R363; log 11, decision D13 of the spec). -/
def Obligations.OutputStarts : Prop :=
  ∀ (a : Addr) (u lo : Nat) (s : State),
    blockOk a lo (unitSize u) s → unitOk u s → canOutput u = true → s.busy u = false → s.hazard false lo (unitSize u) = none →
      ∃ t p, exec (.out a u) s = .next t ∧
        t = { s with media := t.media, pending := t.pending, draws := t.draws, pc := s.pc + 1 } ∧
        t.media = s.media.output u (s.rX.b4 * s.b + s.rX.b5) ((List.range (unitSize u)).map fun k => s.cell (lo + k)) ∧
        sparseLookup t.pending u = some p ∧ p.op = .output lo ∧ ∀ v, v ≠ u → sparseLookup t.pending v = sparseLookup s.pending v

/-- What OUT leaves on a tape and a disk, and what IN takes from them: a record written at the head ends the tape and is the record that
a step back and a read give; a block written to a disk is the block that a read of the same number gives, and no other block changes
(47_input_output.md R358, R360; decision D19 of the spec). -/
def Obligations.WordMedia : Prop :=
  ∀ (m : Media) (k : Nat) (block : List Word),
    (∀ u, u ≤ 7 → (m.tape u).pos ≤ (m.tape u).recs.length →
      ((m.output u k block).tape u).recs = (m.tape u).recs.take (m.tape u).pos ++ [block] ∧
        ((m.output u k block).tape u).pos = (m.tape u).pos + 1 ∧
        (∀ v, v ≠ u → (m.output u k block).tape v = m.tape v) ∧
        (m.output u k block).input u k = none ∧
        ∃ m', ((m.output u k block).setTape u (tapeBack ((m.output u k block).tape u) 1)).input u k = some (block, m') ∧
          m'.tape u = (m.output u k block).tape u) ∧
    ∀ u, 8 ≤ u → u ≤ 15 →
      (m.output u k block).input u k = some (block, m.output u k block) ∧
        ∀ v j, (v ≠ u ∨ j ≠ k) → (m.output u k block).diskBlock v j = m.diskBlock v j

/-- The character units: IN from the card reader and the paper tape gives words of sign + whose bytes are the characters in order, OUT
to the punch, the printer and the typewriter appends the five bytes of each word in order, without signs (47_input_output.md R354, R355,
R375; decisions D13 and D30 of the spec). -/
def Obligations.CharacterMedia : Prop :=
  (∀ (m : Media) (k : Nat) (card : List Nat), m.deck[m.nextCard]? = some card →
    ∃ words, m.input 16 k = some (words, { m with nextCard := m.nextCard + 1 }) ∧ words.length = 16 ∧
      ∀ i w, words[i]? = some w → w.sign = .plus ∧ ∀ j, 1 ≤ j → j ≤ 5 → byteAt w j = card.getD (5 * i + j - 1) 0) ∧
  (∀ (m : Media) (k : Nat) (block : List Nat), m.ptape[m.ppos]? = some block →
    ∃ words, m.input 19 k = some (words, { m with ppos := m.ppos + 1 }) ∧ words.length = 14 ∧
      ∀ i w, words[i]? = some w → w.sign = .plus ∧ ∀ j, 1 ≤ j → j ≤ 5 → byteAt w j = block.getD (5 * i + j - 1) 0) ∧
  ∀ (m : Media) (k : Nat) (words : List Word),
    ∃ chars : List Nat, chars.length = 5 * words.length ∧
      (∀ i w, words[i]? = some w → ∀ j, 1 ≤ j → j ≤ 5 → chars.getD (5 * i + j - 1) 0 = byteAt w j) ∧
      m.output 17 k words = { m with punched := m.punched ++ [chars] } ∧
      m.output 18 k words = { m with printed := m.printed ++ [.line chars] } ∧
      m.output 19 k words = { m with typed := m.typed ++ [chars] }

/-- IOC on a ready unit performs the control operation, makes the unit busy and owns no cell: a tape is rewound, or its head moved back
or forward; a disk only takes time; the printer goes to a new page; the paper tape is rewound (47_input_output.md R364 to R367, R370; log
11, decisions D18 and D19 of the spec). -/
def Obligations.ControlOperations : Prop :=
  ∀ (a : Addr) (u : Nat) (s : State) (media : Media), addrOk a s → unitOk u s → s.busy u = false →
    ((u ≤ 7 ∧ addrSum a s = 0 ∧ media = s.media.setTape u ⟨(s.media.tape u).recs, 0⟩) ∨
      (u ≤ 7 ∧ addrSum a s < 0 ∧
        media = s.media.setTape u ⟨(s.media.tape u).recs, (s.media.tape u).pos - (addrSum a s).natAbs⟩) ∨
      (u ≤ 7 ∧ 0 < addrSum a s ∧ (s.media.tape u).pos + (addrSum a s).natAbs ≤ (s.media.tape u).recs.length ∧
        media = s.media.setTape u ⟨(s.media.tape u).recs, (s.media.tape u).pos + (addrSum a s).natAbs⟩) ∨
      (8 ≤ u ∧ u ≤ 15 ∧ addrSum a s = 0 ∧ media = s.media) ∨
      (u = 18 ∧ addrSum a s = 0 ∧ media = { s.media with printed := s.media.printed ++ [.pageBreak] }) ∨
      (u = 19 ∧ addrSum a s = 0 ∧ media = { s.media with ppos := 0 })) →
        ∃ t p, exec (.ioc a u) s = .next t ∧
          t = { s with media := media, pending := t.pending, draws := t.draws, pc := s.pc + 1 } ∧
          sparseLookup t.pending u = some p ∧ p.op = .control ∧ ∀ v, v ≠ u → sparseLookup t.pending v = sparseLookup s.pending v

/-- JRED jumps when the unit is ready, JBUS when it is busy; they never wait and change nothing else (47_input_output.md R368, R369). -/
def Obligations.UnitJumps : Prop :=
  ∀ (a : Addr) (u c : Nat) (s : State), cellOk a c s → unitOk u s →
    exec (.jred a u) s = .next (if s.busy u then { s with pc := s.pc + 1 } else { s with rJ := s.pc + 1, pc := c }) ∧
      exec (.jbus a u) s = .next (if s.busy u then { s with rJ := s.pc + 1, pc := c } else { s with pc := s.pc + 1 })

/-- The checks on the unit come first, in their order: the number, its presence, for IN and OUT its direction (47_input_output.md R373;
decision D18 of the spec). -/
def Obligations.UnitChecks : Prop :=
  ∀ (i : Instr) (a : Addr) (u : Nat) (s : State),
    (i = .inp a u ∨ i = .out a u ∨ i = .ioc a u ∨ i = .jred a u ∨ i = .jbus a u) → addrOk a s →
      (19 < u → exec i s = .fault (.invalidUnit s.pc u)) ∧
        (u ≤ 19 → s.installed u = false → exec i s = .fault (.unitAbsent s.pc u)) ∧
        (unitOk u s → i = .inp a u → (u = 17 ∨ u = 18) → exec i s = .fault (.unitDirection s.pc u)) ∧
        (unitOk u s → i = .out a u → u = 16 → exec i s = .fault (.unitDirection s.pc u))

/-- After the checks on the unit: a block outside memory faults, a busy unit holds the instruction with nothing changed, a block that
another transfer owns is `IOHazard` (47_input_output.md R362 to R364, R372, 60_exceptions.md R403; decisions D13 and D29 of the spec). That the
spec's hold is a next state equal to the state before is the model's choice (DESIGN CHOICE, log 13). -/
def Obligations.TransferChecks : Prop :=
  ∀ (i : Instr) (changing : Bool) (a : Addr) (u : Nat) (s : State), unitOk u s → addrOk a s →
    (i = .inp a u ∧ changing = true ∧ canInput u = true) ∨ (i = .out a u ∧ changing = false ∧ canOutput u = true) →
      ((addrSum a s < 0 ∨ 4000 < addrSum a s + unitSize u) → ∃ c, exec i s = .fault (.memoryAddress s.pc c)) ∧
        ∀ lo : Nat, addrSum a s = lo → lo + unitSize u ≤ 4000 →
          (s.busy u = true → exec i s = .next s) ∧
            (s.busy u = false → s.hazard changing lo (unitSize u) ≠ none → ∃ c v, exec i s = .fault (.ioHazard s.pc c v))

/-- IOC on a busy unit is held; what the source gives no control operation for is `IOControlUndefined`; IN and IOC past the record last
written are `TapeImproper`, IN with no card or block left is `InputExhausted` (47_input_output.md R360, R362, R364, R371, R375; decisions
D18 and D19 of the spec). That the spec's hold is a next state equal to the state before is the model's choice (DESIGN CHOICE, log
13). -/
def Obligations.DeviceFaults : Prop :=
  ∀ (a : Addr) (u : Nat) (s : State), unitOk u s → addrOk a s →
    (s.busy u = true → exec (.ioc a u) s = .next s) ∧
      (s.busy u = false → (u = 16 ∨ u = 17 ∨ (8 ≤ u ∧ addrSum a s ≠ 0)) →
        exec (.ioc a u) s = .fault (.ioControlUndefined s.pc u (addrSum a s))) ∧
      (s.busy u = false → u ≤ 7 → 0 < addrSum a s →
        (s.media.tape u).recs.length < (s.media.tape u).pos + (addrSum a s).natAbs →
          exec (.ioc a u) s = .fault (.tapeImproper s.pc u)) ∧
      ∀ lo : Nat, addrSum a s = lo → lo + unitSize u ≤ 4000 → s.busy u = false → s.hazard true lo (unitSize u) = none →
        (u ≤ 7 → (s.media.tape u).recs.length ≤ (s.media.tape u).pos → exec (.inp a u) s = .fault (.tapeImproper s.pc u)) ∧
          (u = 16 → s.media.deck.length ≤ s.media.nextCard → exec (.inp a u) s = .fault (.inputExhausted s.pc u)) ∧
          (u = 19 → s.media.ptape.length ≤ s.media.ppos → exec (.inp a u) s = .fault (.inputExhausted s.pc u))

/-- `complete(u)`: the unit is ready, the words of an IN stand in the cells of its block in order, every other cell and everything else
stays (47_input_output.md R361). -/
def Obligations.CompleteDelivers : Prop :=
  ∀ (s : State) (u : Nat) (p : Pending), sparseLookup s.pending u = some p →
    (s.complete u).busy u = false ∧ (∀ v, v ≠ u → sparseLookup (s.complete u).pending v = sparseLookup s.pending v) ∧
      s.complete u = { s with mem := (s.complete u).mem, pending := (s.complete u).pending } ∧
      (∀ start words, p.op = .input start words →
        (∀ k w, words[k]? = some w → (s.complete u).cell (start + k) = w) ∧
          ∀ n, (n < start ∨ start + words.length ≤ n) → (s.complete u).cell n = s.cell n) ∧
      ((∀ start words, p.op ≠ .input start words) → ∀ n, (s.complete u).cell n = s.cell n)

/-- Two transfers that end may end in either order with the same state (70_reset_and_hazards.md R434). -/
def Obligations.CompletionOrder : Prop :=
  ∀ (s : State) (u v : Nat), s.Inv → (s.complete u).complete v = (s.complete v).complete u

/-- A busy unit becomes ready after finitely many steps, unless a fault ends the run before: as many as the free value of its delay says,
and room for the other units (47_input_output.md R361; log 11). -/
def Obligations.BusyUnitBecomesReady : Prop :=
  ∀ (s : State) (u : Nat) (p : Pending), s.Inv → sparseLookup s.pending u = some p →
    ∃ k, k ≤ 21 * (p.wait + 1) ∧
      ((∃ t, runsTo k s t ∧ t.busy u = false) ∨ ∀ t, ¬ runsTo k s t)

/-- A run that has ended, with no restart to come, stays as it is for ever (70_reset_and_hazards.md R434; log 14). -/
def Obligations.EndedRunStays : Prop :=
  ∀ (s : State) (k : Nat), s.ended → s.restarts = [] → runsTo k s s

/-- A store is seen by the next fetch: where any of the ten stores, with any field, changes the cell at the next location, the
instruction that the cell then holds is the one that is run; so STJ into the address field of the next instruction runs the instruction
with the new address (20_memory.md R64, 70_reset_and_hazards.md R439). No transfer ends in between, and those in flight are one processor
step nearer to their end (the count of steps is the model's, log 11). -/
def Obligations.StoreSeenByFetch : Prop :=
  ∀ (r : StoreSource) (a : Addr) (f c : Nat) (s : State) (i : Instr),
    operandOk true a f c s → s.pc + 1 = c → s.due = none → s.halted = false →
      decode (storeField (s.cell c) (s.storedWord r) f) = .ok i →
        ∃ t, exec (.store r a f) s = .next t ∧ step t = exec i t.tick

end
end

