-- ==== Sys2Proof/Laws/Families.lean ====
section
/-! SUPPORT. Every instruction belongs to a family of Syntax.lean or stands alone, and what `exec` is on each family: the case split by
which a fact about all 148 instructions is a fact about 24 shared meanings. -/

namespace Sys2Proof.Machine

/-- A property of every family holds of every instruction. -/
theorem Instr.family_induction {P : Instr → Prop}
    (h_load : ∀ r neg a f, P (.load r neg a f))
    (h_store : ∀ r a f, P (.store r a f))
    (h_arith : ∀ k a f, P (.arith k a f))
    (h_floating : ∀ k a, P (.floating k a))
    (h_enter : ∀ r neg a, P (.enter r neg a))
    (h_increase : ∀ r neg a, P (.increase r neg a))
    (h_compare : ∀ r a f, P (.compare r a f))
    (h_ciJump : ∀ c a, P (.ciJump c a))
    (h_regJump : ∀ r c a, P (.regJump r c a))
    (h_shift : ∀ k a, P (.shift k a))
    (h_nop : ∀ a f, P (.nop a f))
    (h_num : ∀ a, P (.num a))
    (h_char : ∀ a, P (.char a))
    (h_hlt : ∀ a, P (.hlt a))
    (h_move : ∀ a f, P (.move a f))
    (h_jbus : ∀ a f, P (.jbus a f))
    (h_ioc : ∀ a f, P (.ioc a f))
    (h_inp : ∀ a f, P (.inp a f))
    (h_out : ∀ a f, P (.out a f))
    (h_jred : ∀ a f, P (.jred a f))
    (h_jmp : ∀ a, P (.jmp a))
    (h_jsj : ∀ a, P (.jsj a))
    (h_jov : ∀ a, P (.jov a))
    (h_jnov : ∀ a, P (.jnov a)) (i : Instr) : P i := by
  cases i with
  | nop a f => exact h_nop a f
  | add a f => exact h_arith .add a f
  | sub a f => exact h_arith .sub a f
  | mul a f => exact h_arith .mul a f
  | div a f => exact h_arith .div a f
  | fadd a => exact h_floating .add a
  | fsub a => exact h_floating .sub a
  | fmul a => exact h_floating .mul a
  | fdiv a => exact h_floating .div a
  | num a => exact h_num a
  | char a => exact h_char a
  | hlt a => exact h_hlt a
  | sla a => exact h_shift .sla a
  | sra a => exact h_shift .sra a
  | slax a => exact h_shift .slax a
  | srax a => exact h_shift .srax a
  | slc a => exact h_shift .slc a
  | src a => exact h_shift .src a
  | move a f => exact h_move a f
  | lda a f => exact h_load .a false a f
  | ld1 a f => exact h_load (.i .i1) false a f
  | ld2 a f => exact h_load (.i .i2) false a f
  | ld3 a f => exact h_load (.i .i3) false a f
  | ld4 a f => exact h_load (.i .i4) false a f
  | ld5 a f => exact h_load (.i .i5) false a f
  | ld6 a f => exact h_load (.i .i6) false a f
  | ldx a f => exact h_load .x false a f
  | ldan a f => exact h_load .a true a f
  | ld1n a f => exact h_load (.i .i1) true a f
  | ld2n a f => exact h_load (.i .i2) true a f
  | ld3n a f => exact h_load (.i .i3) true a f
  | ld4n a f => exact h_load (.i .i4) true a f
  | ld5n a f => exact h_load (.i .i5) true a f
  | ld6n a f => exact h_load (.i .i6) true a f
  | ldxn a f => exact h_load .x true a f
  | sta a f => exact h_store (.reg .a) a f
  | st1 a f => exact h_store (.reg (.i .i1)) a f
  | st2 a f => exact h_store (.reg (.i .i2)) a f
  | st3 a f => exact h_store (.reg (.i .i3)) a f
  | st4 a f => exact h_store (.reg (.i .i4)) a f
  | st5 a f => exact h_store (.reg (.i .i5)) a f
  | st6 a f => exact h_store (.reg (.i .i6)) a f
  | stx a f => exact h_store (.reg .x) a f
  | stj a f => exact h_store .j a f
  | stz a f => exact h_store .zero a f
  | jbus a f => exact h_jbus a f
  | ioc a f => exact h_ioc a f
  | inp a f => exact h_inp a f
  | out a f => exact h_out a f
  | jred a f => exact h_jred a f
  | jmp a => exact h_jmp a
  | jsj a => exact h_jsj a
  | jov a => exact h_jov a
  | jnov a => exact h_jnov a
  | jl a => exact h_ciJump .l a
  | je a => exact h_ciJump .e a
  | jg a => exact h_ciJump .g a
  | jge a => exact h_ciJump .ge a
  | jne a => exact h_ciJump .ne a
  | jle a => exact h_ciJump .le a
  | jan a => exact h_regJump .a .n a
  | jaz a => exact h_regJump .a .z a
  | jap a => exact h_regJump .a .p a
  | jann a => exact h_regJump .a .nn a
  | janz a => exact h_regJump .a .nz a
  | janp a => exact h_regJump .a .np a
  | j1n a => exact h_regJump (.i .i1) .n a
  | j1z a => exact h_regJump (.i .i1) .z a
  | j1p a => exact h_regJump (.i .i1) .p a
  | j1nn a => exact h_regJump (.i .i1) .nn a
  | j1nz a => exact h_regJump (.i .i1) .nz a
  | j1np a => exact h_regJump (.i .i1) .np a
  | j2n a => exact h_regJump (.i .i2) .n a
  | j2z a => exact h_regJump (.i .i2) .z a
  | j2p a => exact h_regJump (.i .i2) .p a
  | j2nn a => exact h_regJump (.i .i2) .nn a
  | j2nz a => exact h_regJump (.i .i2) .nz a
  | j2np a => exact h_regJump (.i .i2) .np a
  | j3n a => exact h_regJump (.i .i3) .n a
  | j3z a => exact h_regJump (.i .i3) .z a
  | j3p a => exact h_regJump (.i .i3) .p a
  | j3nn a => exact h_regJump (.i .i3) .nn a
  | j3nz a => exact h_regJump (.i .i3) .nz a
  | j3np a => exact h_regJump (.i .i3) .np a
  | j4n a => exact h_regJump (.i .i4) .n a
  | j4z a => exact h_regJump (.i .i4) .z a
  | j4p a => exact h_regJump (.i .i4) .p a
  | j4nn a => exact h_regJump (.i .i4) .nn a
  | j4nz a => exact h_regJump (.i .i4) .nz a
  | j4np a => exact h_regJump (.i .i4) .np a
  | j5n a => exact h_regJump (.i .i5) .n a
  | j5z a => exact h_regJump (.i .i5) .z a
  | j5p a => exact h_regJump (.i .i5) .p a
  | j5nn a => exact h_regJump (.i .i5) .nn a
  | j5nz a => exact h_regJump (.i .i5) .nz a
  | j5np a => exact h_regJump (.i .i5) .np a
  | j6n a => exact h_regJump (.i .i6) .n a
  | j6z a => exact h_regJump (.i .i6) .z a
  | j6p a => exact h_regJump (.i .i6) .p a
  | j6nn a => exact h_regJump (.i .i6) .nn a
  | j6nz a => exact h_regJump (.i .i6) .nz a
  | j6np a => exact h_regJump (.i .i6) .np a
  | jxn a => exact h_regJump .x .n a
  | jxz a => exact h_regJump .x .z a
  | jxp a => exact h_regJump .x .p a
  | jxnn a => exact h_regJump .x .nn a
  | jxnz a => exact h_regJump .x .nz a
  | jxnp a => exact h_regJump .x .np a
  | inca a => exact h_increase .a false a
  | deca a => exact h_increase .a true a
  | enta a => exact h_enter .a false a
  | enna a => exact h_enter .a true a
  | inc1 a => exact h_increase (.i .i1) false a
  | dec1 a => exact h_increase (.i .i1) true a
  | ent1 a => exact h_enter (.i .i1) false a
  | enn1 a => exact h_enter (.i .i1) true a
  | inc2 a => exact h_increase (.i .i2) false a
  | dec2 a => exact h_increase (.i .i2) true a
  | ent2 a => exact h_enter (.i .i2) false a
  | enn2 a => exact h_enter (.i .i2) true a
  | inc3 a => exact h_increase (.i .i3) false a
  | dec3 a => exact h_increase (.i .i3) true a
  | ent3 a => exact h_enter (.i .i3) false a
  | enn3 a => exact h_enter (.i .i3) true a
  | inc4 a => exact h_increase (.i .i4) false a
  | dec4 a => exact h_increase (.i .i4) true a
  | ent4 a => exact h_enter (.i .i4) false a
  | enn4 a => exact h_enter (.i .i4) true a
  | inc5 a => exact h_increase (.i .i5) false a
  | dec5 a => exact h_increase (.i .i5) true a
  | ent5 a => exact h_enter (.i .i5) false a
  | enn5 a => exact h_enter (.i .i5) true a
  | inc6 a => exact h_increase (.i .i6) false a
  | dec6 a => exact h_increase (.i .i6) true a
  | ent6 a => exact h_enter (.i .i6) false a
  | enn6 a => exact h_enter (.i .i6) true a
  | incx a => exact h_increase .x false a
  | decx a => exact h_increase .x true a
  | entx a => exact h_enter .x false a
  | ennx a => exact h_enter .x true a
  | cmpa a f => exact h_compare .a a f
  | cmp1 a f => exact h_compare (.i .i1) a f
  | cmp2 a f => exact h_compare (.i .i2) a f
  | cmp3 a f => exact h_compare (.i .i3) a f
  | cmp4 a f => exact h_compare (.i .i4) a f
  | cmp5 a f => exact h_compare (.i .i5) a f
  | cmp6 a f => exact h_compare (.i .i6) a f
  | cmpx a f => exact h_compare .x a f

theorem exec_load (r : Reg) (neg : Bool) (a : Addr) (f : Nat) (s : State) : exec (.load r neg a f) s = loadInto r neg a f s := by
  rcases r with _ | _ | n <;> [skip; skip; cases n] <;> cases neg <;> rfl

theorem exec_store (r : StoreSource) (a : Addr) (f : Nat) (s : State) : exec (.store r a f) s = storeFrom r a f s := by
  rcases r with (_ | _ | n) | _ | _ <;> [skip; skip; cases n; skip; skip] <;> rfl

theorem exec_enter (r : Reg) (neg : Bool) (a : Addr) (s : State) : exec (.enter r neg a) s = enter r neg a s := by
  rcases r with _ | _ | n <;> [skip; skip; cases n] <;> cases neg <;> rfl

theorem exec_increase (r : Reg) (neg : Bool) (a : Addr) (s : State) : exec (.increase r neg a) s = increase r neg a s := by
  rcases r with _ | _ | n <;> [skip; skip; cases n] <;> cases neg <;> rfl

theorem exec_compare (r : Reg) (a : Addr) (f : Nat) (s : State) : exec (.compare r a f) s = compareReg r a f s := by
  rcases r with _ | _ | n <;> [skip; skip; cases n] <;> rfl

theorem exec_ciJump (c : CiCond) (a : Addr) (s : State) : exec (.ciJump c a) s = jumpOnCi c a s := by
  cases c <;> rfl

theorem exec_regJump (r : Reg) (c : Cond) (a : Addr) (s : State) : exec (.regJump r c a) s = jumpOnReg r c a s := by
  rcases r with _ | _ | n <;> [skip; skip; cases n] <;> cases c <;> rfl

/-- The C of a floating-point row. -/
def floatingC : ArithKind → Nat
  | .add => 1
  | .sub => 2
  | .mul => 3
  | .div => 4

theorem exec_floating (k : ArithKind) (a : Addr) (s : State) : exec (.floating k a) s = floatingStop (floatingC k) a s := by
  cases k <;> rfl

/-- What an arithmetic operator does with its operand V. -/
def arithResult : ArithKind → Word → State → State
  | .add, v, s => addToA (wordVal s.b v) s
  | .sub, v, s => addToA (-(wordVal s.b v)) s
  | .mul, v, s => multiply v s
  | .div, v, s => divide v s

theorem exec_arith (k : ArithKind) (a : Addr) (f : Nat) (s : State) : exec (.arith k a f) s = withOperand a f s fun v => .next (arithResult k v s).advance := by
  cases k <;> rfl

/-- What a shift by `n` bytes does. -/
def shiftResult : ShiftKind → Nat → State → State
  | .sla, n, s => shiftA (shiftLeft n) s
  | .sra, n, s => shiftA (shiftRight n) s
  | .slax, n, s => shiftAX (shiftLeft n) s
  | .srax, n, s => shiftAX (shiftRight n) s
  | .slc, n, s => shiftAX (circulateLeft n) s
  | .src, n, s => shiftAX (circulateRight n) s

theorem exec_shift (k : ShiftKind) (a : Addr) (s : State) : exec (.shift k a) s = withCount a s fun n => .next (shiftResult k n s).advance := by
  cases k <;> rfl

@[simp] theorem Instr.address_load (r : Reg) (neg : Bool) (a : Addr) (f : Nat) : Instr.address (.load r neg a f) = some a := by
  rcases r with _ | _ | n <;> [skip; skip; cases n] <;> cases neg <;> rfl

@[simp] theorem Instr.address_store (r : StoreSource) (a : Addr) (f : Nat) : Instr.address (.store r a f) = some a := by
  rcases r with (_ | _ | n) | _ | _ <;> [skip; skip; cases n; skip; skip] <;> rfl

@[simp] theorem Instr.address_enter (r : Reg) (neg : Bool) (a : Addr) : Instr.address (.enter r neg a) = some a := by
  rcases r with _ | _ | n <;> [skip; skip; cases n] <;> cases neg <;> rfl

@[simp] theorem Instr.address_increase (r : Reg) (neg : Bool) (a : Addr) : Instr.address (.increase r neg a) = some a := by
  rcases r with _ | _ | n <;> [skip; skip; cases n] <;> cases neg <;> rfl

@[simp] theorem Instr.address_compare (r : Reg) (a : Addr) (f : Nat) : Instr.address (.compare r a f) = some a := by
  rcases r with _ | _ | n <;> [skip; skip; cases n] <;> rfl

@[simp] theorem Instr.address_ciJump (c : CiCond) (a : Addr) : Instr.address (.ciJump c a) = some a := by
  cases c <;> rfl

@[simp] theorem Instr.address_regJump (r : Reg) (c : Cond) (a : Addr) : Instr.address (.regJump r c a) = some a := by
  rcases r with _ | _ | n <;> [skip; skip; cases n] <;> cases c <;> rfl

@[simp] theorem Instr.address_floating (k : ArithKind) (a : Addr) : Instr.address (.floating k a) = some a := by
  cases k <;> rfl

@[simp] theorem Instr.address_arith (k : ArithKind) (a : Addr) (f : Nat) : Instr.address (.arith k a f) = some a := by
  cases k <;> rfl

@[simp] theorem Instr.address_shift (k : ShiftKind) (a : Addr) : Instr.address (.shift k a) = some a := by
  cases k <;> rfl

end Sys2Proof.Machine
end

