-- ==== Sys2Proof/Laws/Sparse.lean ====
section
/-! SUPPORT. The tables of Machine/Sparse.lean: reading after writing, for every table; the canonical form is kept; a table in
canonical form is known by what it reads. -/

namespace Sys2Proof.Machine

variable {α : Type}

@[simp] theorem sparseLookup_nil (n : Nat) : sparseLookup ([] : List (Nat × α)) n = none := rfl

@[simp] theorem sparseErase_nil (n : Nat) : sparseErase ([] : List (Nat × α)) n = [] := rfl

theorem sparseErase_cons (e : Nat × α) (l : List (Nat × α)) (n : Nat) :
    sparseErase (e :: l) n = if e.1 = n then sparseErase l n else e :: sparseErase l n := by
  by_cases h : e.1 = n <;> simp [sparseErase, h]

theorem mem_sparseErase {l : List (Nat × α)} {n : Nat} {e : Nat × α} :
    e ∈ sparseErase l n ↔ e ∈ l ∧ e.1 ≠ n := by
  simp [sparseErase]

@[simp] theorem sparseLookup_erase_same (l : List (Nat × α)) (n : Nat) : sparseLookup (sparseErase l n) n = none := by
  induction l with
  | nil => rfl
  | cons e l ih =>
    rw [sparseErase_cons]
    split
    · exact ih
    · rename_i h
      simp [sparseLookup, h, ih]

theorem sparseLookup_erase_other (l : List (Nat × α)) {n k : Nat} (h : k ≠ n) :
    sparseLookup (sparseErase l n) k = sparseLookup l k := by
  induction l with
  | nil => rfl
  | cons e l ih =>
    rw [sparseErase_cons]
    split
    · rename_i he
      rw [ih, sparseLookup, if_neg (by omega)]
    · rw [sparseLookup, sparseLookup, ih]

theorem sparseLookup_place_same (l : List (Nat × α)) (n : Nat) (v : α) (h : sparseLookup l n = none) :
    sparseLookup (sparsePlace n v l) n = some v := by
  induction l with
  | nil => simp [sparsePlace, sparseLookup]
  | cons e l ih =>
    obtain ⟨k, u⟩ := e
    simp only [sparseLookup] at h
    split at h
    · cases h
    · rename_i hk
      simp only [sparsePlace]
      split
      · simp [sparseLookup]
      · simp [sparseLookup, hk, ih h]

theorem sparseLookup_place_other (l : List (Nat × α)) {n k : Nat} (v : α) (h : k ≠ n) :
    sparseLookup (sparsePlace n v l) k = sparseLookup l k := by
  induction l with
  | nil => simp [sparsePlace, sparseLookup, h.symm]
  | cons e l ih =>
    obtain ⟨j, u⟩ := e
    simp only [sparsePlace]
    split
    · simp [sparseLookup, h.symm]
    · simp [sparseLookup, ih]

@[simp] theorem sparseLookup_insert_same (l : List (Nat × α)) (n : Nat) (v : α) :
    sparseLookup (sparseInsert l n v) n = some v :=
  sparseLookup_place_same _ n v (sparseLookup_erase_same l n)

theorem sparseLookup_insert_other (l : List (Nat × α)) {n k : Nat} (v : α) (h : k ≠ n) :
    sparseLookup (sparseInsert l n v) k = sparseLookup l k := by
  rw [sparseInsert, sparseLookup_place_other _ v h, sparseLookup_erase_other l h]

@[simp] theorem sparseGet_set_same [DecidableEq α] (d : α) (l : List (Nat × α)) (n : Nat) (v : α) :
    sparseGet d (sparseSet d l n v) n = v := by
  unfold sparseSet sparseGet
  split
  · rename_i h
    simp [h]
  · simp

theorem sparseGet_set_other [DecidableEq α] (d : α) (l : List (Nat × α)) {n k : Nat} (v : α) (h : k ≠ n) :
    sparseGet d (sparseSet d l n v) k = sparseGet d l k := by
  unfold sparseSet sparseGet
  split
  · rw [sparseLookup_erase_other l h]
  · rw [sparseLookup_insert_other l v h]

theorem mem_sparsePlace {l : List (Nat × α)} {n : Nat} {v : α} {e : Nat × α} :
    e ∈ sparsePlace n v l ↔ e = (n, v) ∨ e ∈ l := by
  induction l with
  | nil => simp [sparsePlace]
  | cons d l ih =>
    obtain ⟨k, u⟩ := d
    simp only [sparsePlace]
    split
    · simp
    · simp only [List.mem_cons, ih]
      tauto

theorem mem_sparseInsert {l : List (Nat × α)} {n : Nat} {v : α} {e : Nat × α} :
    e ∈ sparseInsert l n v ↔ e = (n, v) ∨ (e ∈ l ∧ e.1 ≠ n) := by
  rw [sparseInsert, mem_sparsePlace, mem_sparseErase]

theorem mem_sparseSet [DecidableEq α] {d : α} {l : List (Nat × α)} {n : Nat} {v : α} {e : Nat × α}
    (h : e ∈ sparseSet d l n v) : (e = (n, v) ∧ v ≠ d) ∨ (e ∈ l ∧ e.1 ≠ n) := by
  unfold sparseSet at h
  split at h
  · exact .inr (mem_sparseErase.1 h)
  · rename_i hv
    rcases mem_sparseInsert.1 h with he | he
    · exact .inl ⟨he, hv⟩
    · exact .inr he

theorem sparseSorted_erase {l : List (Nat × α)} (h : sparseSorted l) (n : Nat) : sparseSorted (sparseErase l n) :=
  List.Pairwise.filter _ h

theorem sparseSorted_place {l : List (Nat × α)} (h : sparseSorted l) (n : Nat) (v : α) (hn : ∀ e ∈ l, e.1 ≠ n) :
    sparseSorted (sparsePlace n v l) := by
  induction l with
  | nil => simp [sparsePlace, sparseSorted]
  | cons d l ih =>
    obtain ⟨k, u⟩ := d
    have hk : k ≠ n := hn (k, u) (by simp)
    rw [sparseSorted, List.pairwise_cons] at h
    simp only [sparsePlace]
    split
    · rename_i hlt
      rw [sparseSorted, List.pairwise_cons, List.pairwise_cons]
      refine ⟨fun e he => ?_, h⟩
      rcases List.mem_cons.1 he with rfl | he
      · exact hlt
      · exact lt_trans hlt (h.1 e he)
    · rw [sparseSorted, List.pairwise_cons]
      refine ⟨fun e he => ?_, ih h.2 fun e he => hn e (List.mem_cons_of_mem _ he)⟩
      rcases mem_sparsePlace.1 he with rfl | he
      · show k < n
        omega
      · exact h.1 e he

theorem sparseSorted_insert {l : List (Nat × α)} (h : sparseSorted l) (n : Nat) (v : α) : sparseSorted (sparseInsert l n v) :=
  sparseSorted_place (sparseSorted_erase h n) n v fun _ he => (mem_sparseErase.1 he).2

theorem sparseSorted_set [DecidableEq α] {l : List (Nat × α)} (h : sparseSorted l) (d : α) (n : Nat) (v : α) :
    sparseSorted (sparseSet d l n v) := by
  unfold sparseSet
  split
  · exact sparseSorted_erase h n
  · exact sparseSorted_insert h n v

theorem sparseLookup_mem {l : List (Nat × α)} {n : Nat} {v : α} (h : sparseLookup l n = some v) : (n, v) ∈ l := by
  induction l with
  | nil => cases h
  | cons e l ih =>
    obtain ⟨k, u⟩ := e
    simp only [sparseLookup] at h
    split at h
    · rename_i hk
      cases h
      simp [hk]
    · exact List.mem_cons_of_mem _ (ih h)

theorem sparseLookup_of_mem {l : List (Nat × α)} (hs : sparseSorted l) {n : Nat} {v : α} (h : (n, v) ∈ l) :
    sparseLookup l n = some v := by
  induction l with
  | nil => cases h
  | cons e l ih =>
    obtain ⟨k, u⟩ := e
    rw [sparseSorted, List.pairwise_cons] at hs
    simp only [sparseLookup]
    rcases List.mem_cons.1 h with he | he
    · cases he
      simp
    · have : k < n := hs.1 (n, v) he
      rw [if_neg (by omega)]
      exact ih hs.2 he

theorem sparseLookup_none {l : List (Nat × α)} {n : Nat} : sparseLookup l n = none ↔ ∀ e ∈ l, e.1 ≠ n := by
  induction l with
  | nil => simp
  | cons e l ih =>
    obtain ⟨k, u⟩ := e
    by_cases hk : k = n <;> simp [sparseLookup, hk, ih]

/-- What a table reads is a listed content or the default. -/
theorem sparseGet_mem_or_default (d : α) (l : List (Nat × α)) (n : Nat) : (n, sparseGet d l n) ∈ l ∨ sparseGet d l n = d := by
  unfold sparseGet
  cases h : sparseLookup l n with
  | none => exact .inr rfl
  | some v => exact .inl (sparseLookup_mem h)

/-- Two tables in rising order that list the same are equal. -/
theorem sparse_ext {l m : List (Nat × α)} (hl : sparseSorted l) (hm : sparseSorted m)
    (h : ∀ n, sparseLookup l n = sparseLookup m n) : l = m := by
  induction l generalizing m with
  | nil =>
    cases m with
    | nil => rfl
    | cons e m =>
      have := h e.1
      simp [sparseLookup] at this
  | cons d l ih =>
    cases m with
    | nil =>
      have := h d.1
      simp [sparseLookup] at this
    | cons e m =>
      obtain ⟨j, u⟩ := d
      obtain ⟨k, v⟩ := e
      have hl' := List.pairwise_cons.1 hl
      have hm' := List.pairwise_cons.1 hm
      have hj := h j
      have hk := h k
      simp only [sparseLookup, if_true] at hj hk
      have hjk : j = k := by
        by_contra hne
        rw [if_neg (Ne.symm hne)] at hj
        rw [if_neg hne] at hk
        have h1 := hm'.1 _ (sparseLookup_mem hj.symm)
        have h2 := hl'.1 _ (sparseLookup_mem hk)
        simp only at h1 h2
        omega
      subst hjk
      simp only [if_true, Option.some.injEq] at hj
      subst hj
      congr 1
      refine ih hl'.2 hm'.2 fun n => ?_
      have hn := h n
      simp only [sparseLookup] at hn
      by_cases hjn : j = n
      · have h1 : sparseLookup l n = none := sparseLookup_none.2 fun e he => by have := hl'.1 e he; simp only at this; omega
        have h2 : sparseLookup m n = none := sparseLookup_none.2 fun e he => by have := hm'.1 e he; simp only at this; omega
        rw [h1, h2]
      · simpa [hjn] using hn

end Sys2Proof.Machine
end

