-- ==== Sys2Proof/Laws/Memory.lean ====
section
/-! SUPPORT. The memory: a cell reads what was last written to it, every operation keeps the canonical form `Memory.wf`, and what the
blocks of the units and the loop of MOVE leave in each cell. -/

namespace Sys2Proof.Machine

@[simp] theorem Memory.read_write_same (m : Memory) (n : Nat) (w : Word) : (m.write n w).read n = w :=
  sparseGet_set_same _ _ _ _

theorem Memory.read_write_other (m : Memory) {n k : Nat} (w : Word) (h : k ≠ n) : (m.write n w).read k = m.read k :=
  sparseGet_set_other _ _ _ h

/-- Writing a cell that exists keeps the canonical form. -/
theorem Memory.wf_write {m : Memory} (h : Memory.wf m) {n : Nat} (hn : n < 4000) (w : Word) : Memory.wf (m.write n w) := by
  refine ⟨sparseSorted_set h.1 _ n w, fun e he => ?_⟩
  rcases mem_sparseSet he with ⟨rfl, hw⟩ | ⟨he, _⟩
  · exact ⟨hn, hw⟩
  · exact h.2 e he

/-- Writing a block of cells that exist keeps the canonical form. -/
theorem Memory.wf_writeBlock {m : Memory} (h : Memory.wf m) {n : Nat} (l : List Word) (hn : n + l.length ≤ 4000) :
    Memory.wf (m.writeBlock n l) := by
  induction l generalizing m n with
  | nil => exact h
  | cons w l ih =>
    simp only [List.length_cons] at hn
    exact ih (Memory.wf_write h (by omega) w) (by omega)

/-- The loop of MOVE keeps the canonical form. -/
theorem Memory.wf_moveWords {m : Memory} (h : Memory.wf m) {src dst n : Nat} (hn : dst + n ≤ 4000) :
    Memory.wf (m.moveWords src dst n) := by
  induction n generalizing m src dst with
  | zero => exact h
  | succ n ih => exact ih (Memory.wf_write h (by omega) _) (by omega)

/-- An empty memory is in canonical form. -/
theorem Memory.wf_nil : Memory.wf [] := by
  simp [Memory.wf, sparseSorted]

/-- A cell outside a written block keeps its word. -/
theorem Memory.read_writeBlock_other (m : Memory) (n : Nat) (l : List Word) {k : Nat} (h : k < n ∨ n + l.length ≤ k) :
    (m.writeBlock n l).read k = m.read k := by
  induction l generalizing m n with
  | nil => rfl
  | cons w l ih =>
    simp only [List.length_cons] at h
    rw [Memory.writeBlock, ih _ _ (by omega), Memory.read_write_other _ _ (by omega)]

/-- A cell of a written block holds the word of its place. -/
theorem Memory.read_writeBlock_inside (m : Memory) (n : Nat) (l : List Word) {j : Nat} (h : j < l.length) :
    (m.writeBlock n l).read (n + j) = l[j] := by
  induction l generalizing m n j with
  | nil => cases h
  | cons w l ih =>
    cases j with
    | zero =>
      rw [Memory.writeBlock, Memory.read_writeBlock_other _ _ _ (by omega)]
      exact Memory.read_write_same m n w
    | succ j =>
      simp only [List.length_cons] at h
      rw [Memory.writeBlock, show n + (j + 1) = n + 1 + j by omega]
      exact ih _ _ (by omega)

@[simp] theorem Memory.length_readBlock (m : Memory) (lo n : Nat) : (m.readBlock lo n).length = n := by
  simp [Memory.readBlock]

/-- A cell outside the destination of a MOVE keeps its word. -/
theorem Memory.read_moveWords_other (m : Memory) (src dst n : Nat) {k : Nat} (h : k < dst ∨ dst + n ≤ k) :
    (m.moveWords src dst n).read k = m.read k := by
  induction n generalizing m src dst with
  | zero => rfl
  | succ n ih => rw [Memory.moveWords, ih _ _ _ (by omega), Memory.read_write_other _ _ (by omega)]

/-- The first destination cell of a MOVE holds the first source word, and the rest is the loop from there on. -/
theorem Memory.read_moveWords_zero (m : Memory) (src dst n : Nat) :
    (m.moveWords src dst (n + 1)).read dst = m.read src := by
  rw [Memory.moveWords, Memory.read_moveWords_other _ _ _ _ (by omega), Memory.read_write_same]

theorem Memory.read_moveWords_succ (m : Memory) (src dst n k : Nat) :
    (m.moveWords src dst (n + 1)).read (dst + 1 + k) =
      ((m.write dst (m.read src)).moveWords (src + 1) (dst + 1) n).read (dst + 1 + k) := rfl

/-- What a memory in canonical form reads is a word whenever its listed words are. -/
theorem Memory.read_cases (m : Memory) (n : Nat) : (n, m.read n) ∈ m ∨ m.read n = Word.plusZero :=
  sparseGet_mem_or_default _ m n

end Sys2Proof.Machine
end

