-- ==== Sys2Proof/Laws/State.lean ====
section
/-! SUPPORT. What each named update of the state does to each field: one lemma per field and update, true by computation, so that no
proof unfolds an update; then the same for the updates that are made of them. -/

namespace Sys2Proof.Machine

@[simp] theorem State.setA_params (s : State) (w : Word) : (s.setA w).params = s.params := rfl
@[simp] theorem State.setA_rA (s : State) (w : Word) : (s.setA w).rA = w := rfl
@[simp] theorem State.setA_rX (s : State) (w : Word) : (s.setA w).rX = s.rX := rfl
@[simp] theorem State.setA_rI (s : State) (w : Word) : (s.setA w).rI = s.rI := rfl
@[simp] theorem State.setA_rJ (s : State) (w : Word) : (s.setA w).rJ = s.rJ := rfl
@[simp] theorem State.setA_ov (s : State) (w : Word) : (s.setA w).ov = s.ov := rfl
@[simp] theorem State.setA_ci (s : State) (w : Word) : (s.setA w).ci = s.ci := rfl
@[simp] theorem State.setA_mem (s : State) (w : Word) : (s.setA w).mem = s.mem := rfl
@[simp] theorem State.setA_pc (s : State) (w : Word) : (s.setA w).pc = s.pc := rfl
@[simp] theorem State.setA_halted (s : State) (w : Word) : (s.setA w).halted = s.halted := rfl
@[simp] theorem State.setA_pending (s : State) (w : Word) : (s.setA w).pending = s.pending := rfl
@[simp] theorem State.setA_media (s : State) (w : Word) : (s.setA w).media = s.media := rfl
@[simp] theorem State.setA_restarts (s : State) (w : Word) : (s.setA w).restarts = s.restarts := rfl
@[simp] theorem State.setA_draws (s : State) (w : Word) : (s.setA w).draws = s.draws := rfl

@[simp] theorem State.setX_params (s : State) (w : Word) : (s.setX w).params = s.params := rfl
@[simp] theorem State.setX_rA (s : State) (w : Word) : (s.setX w).rA = s.rA := rfl
@[simp] theorem State.setX_rX (s : State) (w : Word) : (s.setX w).rX = w := rfl
@[simp] theorem State.setX_rI (s : State) (w : Word) : (s.setX w).rI = s.rI := rfl
@[simp] theorem State.setX_rJ (s : State) (w : Word) : (s.setX w).rJ = s.rJ := rfl
@[simp] theorem State.setX_ov (s : State) (w : Word) : (s.setX w).ov = s.ov := rfl
@[simp] theorem State.setX_ci (s : State) (w : Word) : (s.setX w).ci = s.ci := rfl
@[simp] theorem State.setX_mem (s : State) (w : Word) : (s.setX w).mem = s.mem := rfl
@[simp] theorem State.setX_pc (s : State) (w : Word) : (s.setX w).pc = s.pc := rfl
@[simp] theorem State.setX_halted (s : State) (w : Word) : (s.setX w).halted = s.halted := rfl
@[simp] theorem State.setX_pending (s : State) (w : Word) : (s.setX w).pending = s.pending := rfl
@[simp] theorem State.setX_media (s : State) (w : Word) : (s.setX w).media = s.media := rfl
@[simp] theorem State.setX_restarts (s : State) (w : Word) : (s.setX w).restarts = s.restarts := rfl
@[simp] theorem State.setX_draws (s : State) (w : Word) : (s.setX w).draws = s.draws := rfl

@[simp] theorem State.setIndexes_params (s : State) (r : Indexes) : (s.setIndexes r).params = s.params := rfl
@[simp] theorem State.setIndexes_rA (s : State) (r : Indexes) : (s.setIndexes r).rA = s.rA := rfl
@[simp] theorem State.setIndexes_rX (s : State) (r : Indexes) : (s.setIndexes r).rX = s.rX := rfl
@[simp] theorem State.setIndexes_rI (s : State) (r : Indexes) : (s.setIndexes r).rI = r := rfl
@[simp] theorem State.setIndexes_rJ (s : State) (r : Indexes) : (s.setIndexes r).rJ = s.rJ := rfl
@[simp] theorem State.setIndexes_ov (s : State) (r : Indexes) : (s.setIndexes r).ov = s.ov := rfl
@[simp] theorem State.setIndexes_ci (s : State) (r : Indexes) : (s.setIndexes r).ci = s.ci := rfl
@[simp] theorem State.setIndexes_mem (s : State) (r : Indexes) : (s.setIndexes r).mem = s.mem := rfl
@[simp] theorem State.setIndexes_pc (s : State) (r : Indexes) : (s.setIndexes r).pc = s.pc := rfl
@[simp] theorem State.setIndexes_halted (s : State) (r : Indexes) : (s.setIndexes r).halted = s.halted := rfl
@[simp] theorem State.setIndexes_pending (s : State) (r : Indexes) : (s.setIndexes r).pending = s.pending := rfl
@[simp] theorem State.setIndexes_media (s : State) (r : Indexes) : (s.setIndexes r).media = s.media := rfl
@[simp] theorem State.setIndexes_restarts (s : State) (r : Indexes) : (s.setIndexes r).restarts = s.restarts := rfl
@[simp] theorem State.setIndexes_draws (s : State) (r : Indexes) : (s.setIndexes r).draws = s.draws := rfl

@[simp] theorem State.setJ_params (s : State) (n : Nat) : (s.setJ n).params = s.params := rfl
@[simp] theorem State.setJ_rA (s : State) (n : Nat) : (s.setJ n).rA = s.rA := rfl
@[simp] theorem State.setJ_rX (s : State) (n : Nat) : (s.setJ n).rX = s.rX := rfl
@[simp] theorem State.setJ_rI (s : State) (n : Nat) : (s.setJ n).rI = s.rI := rfl
@[simp] theorem State.setJ_rJ (s : State) (n : Nat) : (s.setJ n).rJ = n := rfl
@[simp] theorem State.setJ_ov (s : State) (n : Nat) : (s.setJ n).ov = s.ov := rfl
@[simp] theorem State.setJ_ci (s : State) (n : Nat) : (s.setJ n).ci = s.ci := rfl
@[simp] theorem State.setJ_mem (s : State) (n : Nat) : (s.setJ n).mem = s.mem := rfl
@[simp] theorem State.setJ_pc (s : State) (n : Nat) : (s.setJ n).pc = s.pc := rfl
@[simp] theorem State.setJ_halted (s : State) (n : Nat) : (s.setJ n).halted = s.halted := rfl
@[simp] theorem State.setJ_pending (s : State) (n : Nat) : (s.setJ n).pending = s.pending := rfl
@[simp] theorem State.setJ_media (s : State) (n : Nat) : (s.setJ n).media = s.media := rfl
@[simp] theorem State.setJ_restarts (s : State) (n : Nat) : (s.setJ n).restarts = s.restarts := rfl
@[simp] theorem State.setJ_draws (s : State) (n : Nat) : (s.setJ n).draws = s.draws := rfl

@[simp] theorem State.setOv_params (s : State) (v : Bool) : (s.setOv v).params = s.params := rfl
@[simp] theorem State.setOv_rA (s : State) (v : Bool) : (s.setOv v).rA = s.rA := rfl
@[simp] theorem State.setOv_rX (s : State) (v : Bool) : (s.setOv v).rX = s.rX := rfl
@[simp] theorem State.setOv_rI (s : State) (v : Bool) : (s.setOv v).rI = s.rI := rfl
@[simp] theorem State.setOv_rJ (s : State) (v : Bool) : (s.setOv v).rJ = s.rJ := rfl
@[simp] theorem State.setOv_ov (s : State) (v : Bool) : (s.setOv v).ov = v := rfl
@[simp] theorem State.setOv_ci (s : State) (v : Bool) : (s.setOv v).ci = s.ci := rfl
@[simp] theorem State.setOv_mem (s : State) (v : Bool) : (s.setOv v).mem = s.mem := rfl
@[simp] theorem State.setOv_pc (s : State) (v : Bool) : (s.setOv v).pc = s.pc := rfl
@[simp] theorem State.setOv_halted (s : State) (v : Bool) : (s.setOv v).halted = s.halted := rfl
@[simp] theorem State.setOv_pending (s : State) (v : Bool) : (s.setOv v).pending = s.pending := rfl
@[simp] theorem State.setOv_media (s : State) (v : Bool) : (s.setOv v).media = s.media := rfl
@[simp] theorem State.setOv_restarts (s : State) (v : Bool) : (s.setOv v).restarts = s.restarts := rfl
@[simp] theorem State.setOv_draws (s : State) (v : Bool) : (s.setOv v).draws = s.draws := rfl

@[simp] theorem State.setCi_params (s : State) (c : Comparison) : (s.setCi c).params = s.params := rfl
@[simp] theorem State.setCi_rA (s : State) (c : Comparison) : (s.setCi c).rA = s.rA := rfl
@[simp] theorem State.setCi_rX (s : State) (c : Comparison) : (s.setCi c).rX = s.rX := rfl
@[simp] theorem State.setCi_rI (s : State) (c : Comparison) : (s.setCi c).rI = s.rI := rfl
@[simp] theorem State.setCi_rJ (s : State) (c : Comparison) : (s.setCi c).rJ = s.rJ := rfl
@[simp] theorem State.setCi_ov (s : State) (c : Comparison) : (s.setCi c).ov = s.ov := rfl
@[simp] theorem State.setCi_ci (s : State) (c : Comparison) : (s.setCi c).ci = c := rfl
@[simp] theorem State.setCi_mem (s : State) (c : Comparison) : (s.setCi c).mem = s.mem := rfl
@[simp] theorem State.setCi_pc (s : State) (c : Comparison) : (s.setCi c).pc = s.pc := rfl
@[simp] theorem State.setCi_halted (s : State) (c : Comparison) : (s.setCi c).halted = s.halted := rfl
@[simp] theorem State.setCi_pending (s : State) (c : Comparison) : (s.setCi c).pending = s.pending := rfl
@[simp] theorem State.setCi_media (s : State) (c : Comparison) : (s.setCi c).media = s.media := rfl
@[simp] theorem State.setCi_restarts (s : State) (c : Comparison) : (s.setCi c).restarts = s.restarts := rfl
@[simp] theorem State.setCi_draws (s : State) (c : Comparison) : (s.setCi c).draws = s.draws := rfl

@[simp] theorem State.setMem_params (s : State) (m : Memory) : (s.setMem m).params = s.params := rfl
@[simp] theorem State.setMem_rA (s : State) (m : Memory) : (s.setMem m).rA = s.rA := rfl
@[simp] theorem State.setMem_rX (s : State) (m : Memory) : (s.setMem m).rX = s.rX := rfl
@[simp] theorem State.setMem_rI (s : State) (m : Memory) : (s.setMem m).rI = s.rI := rfl
@[simp] theorem State.setMem_rJ (s : State) (m : Memory) : (s.setMem m).rJ = s.rJ := rfl
@[simp] theorem State.setMem_ov (s : State) (m : Memory) : (s.setMem m).ov = s.ov := rfl
@[simp] theorem State.setMem_ci (s : State) (m : Memory) : (s.setMem m).ci = s.ci := rfl
@[simp] theorem State.setMem_mem (s : State) (m : Memory) : (s.setMem m).mem = m := rfl
@[simp] theorem State.setMem_pc (s : State) (m : Memory) : (s.setMem m).pc = s.pc := rfl
@[simp] theorem State.setMem_halted (s : State) (m : Memory) : (s.setMem m).halted = s.halted := rfl
@[simp] theorem State.setMem_pending (s : State) (m : Memory) : (s.setMem m).pending = s.pending := rfl
@[simp] theorem State.setMem_media (s : State) (m : Memory) : (s.setMem m).media = s.media := rfl
@[simp] theorem State.setMem_restarts (s : State) (m : Memory) : (s.setMem m).restarts = s.restarts := rfl
@[simp] theorem State.setMem_draws (s : State) (m : Memory) : (s.setMem m).draws = s.draws := rfl

@[simp] theorem State.setPc_params (s : State) (n : Nat) : (s.setPc n).params = s.params := rfl
@[simp] theorem State.setPc_rA (s : State) (n : Nat) : (s.setPc n).rA = s.rA := rfl
@[simp] theorem State.setPc_rX (s : State) (n : Nat) : (s.setPc n).rX = s.rX := rfl
@[simp] theorem State.setPc_rI (s : State) (n : Nat) : (s.setPc n).rI = s.rI := rfl
@[simp] theorem State.setPc_rJ (s : State) (n : Nat) : (s.setPc n).rJ = s.rJ := rfl
@[simp] theorem State.setPc_ov (s : State) (n : Nat) : (s.setPc n).ov = s.ov := rfl
@[simp] theorem State.setPc_ci (s : State) (n : Nat) : (s.setPc n).ci = s.ci := rfl
@[simp] theorem State.setPc_mem (s : State) (n : Nat) : (s.setPc n).mem = s.mem := rfl
@[simp] theorem State.setPc_pc (s : State) (n : Nat) : (s.setPc n).pc = n := rfl
@[simp] theorem State.setPc_halted (s : State) (n : Nat) : (s.setPc n).halted = s.halted := rfl
@[simp] theorem State.setPc_pending (s : State) (n : Nat) : (s.setPc n).pending = s.pending := rfl
@[simp] theorem State.setPc_media (s : State) (n : Nat) : (s.setPc n).media = s.media := rfl
@[simp] theorem State.setPc_restarts (s : State) (n : Nat) : (s.setPc n).restarts = s.restarts := rfl
@[simp] theorem State.setPc_draws (s : State) (n : Nat) : (s.setPc n).draws = s.draws := rfl

@[simp] theorem State.setHalted_params (s : State) (v : Bool) : (s.setHalted v).params = s.params := rfl
@[simp] theorem State.setHalted_rA (s : State) (v : Bool) : (s.setHalted v).rA = s.rA := rfl
@[simp] theorem State.setHalted_rX (s : State) (v : Bool) : (s.setHalted v).rX = s.rX := rfl
@[simp] theorem State.setHalted_rI (s : State) (v : Bool) : (s.setHalted v).rI = s.rI := rfl
@[simp] theorem State.setHalted_rJ (s : State) (v : Bool) : (s.setHalted v).rJ = s.rJ := rfl
@[simp] theorem State.setHalted_ov (s : State) (v : Bool) : (s.setHalted v).ov = s.ov := rfl
@[simp] theorem State.setHalted_ci (s : State) (v : Bool) : (s.setHalted v).ci = s.ci := rfl
@[simp] theorem State.setHalted_mem (s : State) (v : Bool) : (s.setHalted v).mem = s.mem := rfl
@[simp] theorem State.setHalted_pc (s : State) (v : Bool) : (s.setHalted v).pc = s.pc := rfl
@[simp] theorem State.setHalted_halted (s : State) (v : Bool) : (s.setHalted v).halted = v := rfl
@[simp] theorem State.setHalted_pending (s : State) (v : Bool) : (s.setHalted v).pending = s.pending := rfl
@[simp] theorem State.setHalted_media (s : State) (v : Bool) : (s.setHalted v).media = s.media := rfl
@[simp] theorem State.setHalted_restarts (s : State) (v : Bool) : (s.setHalted v).restarts = s.restarts := rfl
@[simp] theorem State.setHalted_draws (s : State) (v : Bool) : (s.setHalted v).draws = s.draws := rfl

@[simp] theorem State.setPending_params (s : State) (p : List (Nat × Pending)) : (s.setPending p).params = s.params := rfl
@[simp] theorem State.setPending_rA (s : State) (p : List (Nat × Pending)) : (s.setPending p).rA = s.rA := rfl
@[simp] theorem State.setPending_rX (s : State) (p : List (Nat × Pending)) : (s.setPending p).rX = s.rX := rfl
@[simp] theorem State.setPending_rI (s : State) (p : List (Nat × Pending)) : (s.setPending p).rI = s.rI := rfl
@[simp] theorem State.setPending_rJ (s : State) (p : List (Nat × Pending)) : (s.setPending p).rJ = s.rJ := rfl
@[simp] theorem State.setPending_ov (s : State) (p : List (Nat × Pending)) : (s.setPending p).ov = s.ov := rfl
@[simp] theorem State.setPending_ci (s : State) (p : List (Nat × Pending)) : (s.setPending p).ci = s.ci := rfl
@[simp] theorem State.setPending_mem (s : State) (p : List (Nat × Pending)) : (s.setPending p).mem = s.mem := rfl
@[simp] theorem State.setPending_pc (s : State) (p : List (Nat × Pending)) : (s.setPending p).pc = s.pc := rfl
@[simp] theorem State.setPending_halted (s : State) (p : List (Nat × Pending)) : (s.setPending p).halted = s.halted := rfl
@[simp] theorem State.setPending_pending (s : State) (p : List (Nat × Pending)) : (s.setPending p).pending = p := rfl
@[simp] theorem State.setPending_media (s : State) (p : List (Nat × Pending)) : (s.setPending p).media = s.media := rfl
@[simp] theorem State.setPending_restarts (s : State) (p : List (Nat × Pending)) : (s.setPending p).restarts = s.restarts := rfl
@[simp] theorem State.setPending_draws (s : State) (p : List (Nat × Pending)) : (s.setPending p).draws = s.draws := rfl

@[simp] theorem State.setMedia_params (s : State) (m : Media) : (s.setMedia m).params = s.params := rfl
@[simp] theorem State.setMedia_rA (s : State) (m : Media) : (s.setMedia m).rA = s.rA := rfl
@[simp] theorem State.setMedia_rX (s : State) (m : Media) : (s.setMedia m).rX = s.rX := rfl
@[simp] theorem State.setMedia_rI (s : State) (m : Media) : (s.setMedia m).rI = s.rI := rfl
@[simp] theorem State.setMedia_rJ (s : State) (m : Media) : (s.setMedia m).rJ = s.rJ := rfl
@[simp] theorem State.setMedia_ov (s : State) (m : Media) : (s.setMedia m).ov = s.ov := rfl
@[simp] theorem State.setMedia_ci (s : State) (m : Media) : (s.setMedia m).ci = s.ci := rfl
@[simp] theorem State.setMedia_mem (s : State) (m : Media) : (s.setMedia m).mem = s.mem := rfl
@[simp] theorem State.setMedia_pc (s : State) (m : Media) : (s.setMedia m).pc = s.pc := rfl
@[simp] theorem State.setMedia_halted (s : State) (m : Media) : (s.setMedia m).halted = s.halted := rfl
@[simp] theorem State.setMedia_pending (s : State) (m : Media) : (s.setMedia m).pending = s.pending := rfl
@[simp] theorem State.setMedia_media (s : State) (m : Media) : (s.setMedia m).media = m := rfl
@[simp] theorem State.setMedia_restarts (s : State) (m : Media) : (s.setMedia m).restarts = s.restarts := rfl
@[simp] theorem State.setMedia_draws (s : State) (m : Media) : (s.setMedia m).draws = s.draws := rfl

@[simp] theorem State.setRestarts_params (s : State) (r : List Nat) : (s.setRestarts r).params = s.params := rfl
@[simp] theorem State.setRestarts_rA (s : State) (r : List Nat) : (s.setRestarts r).rA = s.rA := rfl
@[simp] theorem State.setRestarts_rX (s : State) (r : List Nat) : (s.setRestarts r).rX = s.rX := rfl
@[simp] theorem State.setRestarts_rI (s : State) (r : List Nat) : (s.setRestarts r).rI = s.rI := rfl
@[simp] theorem State.setRestarts_rJ (s : State) (r : List Nat) : (s.setRestarts r).rJ = s.rJ := rfl
@[simp] theorem State.setRestarts_ov (s : State) (r : List Nat) : (s.setRestarts r).ov = s.ov := rfl
@[simp] theorem State.setRestarts_ci (s : State) (r : List Nat) : (s.setRestarts r).ci = s.ci := rfl
@[simp] theorem State.setRestarts_mem (s : State) (r : List Nat) : (s.setRestarts r).mem = s.mem := rfl
@[simp] theorem State.setRestarts_pc (s : State) (r : List Nat) : (s.setRestarts r).pc = s.pc := rfl
@[simp] theorem State.setRestarts_halted (s : State) (r : List Nat) : (s.setRestarts r).halted = s.halted := rfl
@[simp] theorem State.setRestarts_pending (s : State) (r : List Nat) : (s.setRestarts r).pending = s.pending := rfl
@[simp] theorem State.setRestarts_media (s : State) (r : List Nat) : (s.setRestarts r).media = s.media := rfl
@[simp] theorem State.setRestarts_restarts (s : State) (r : List Nat) : (s.setRestarts r).restarts = r := rfl
@[simp] theorem State.setRestarts_draws (s : State) (r : List Nat) : (s.setRestarts r).draws = s.draws := rfl

@[simp] theorem State.setDraws_params (s : State) (n : Nat) : (s.setDraws n).params = s.params := rfl
@[simp] theorem State.setDraws_rA (s : State) (n : Nat) : (s.setDraws n).rA = s.rA := rfl
@[simp] theorem State.setDraws_rX (s : State) (n : Nat) : (s.setDraws n).rX = s.rX := rfl
@[simp] theorem State.setDraws_rI (s : State) (n : Nat) : (s.setDraws n).rI = s.rI := rfl
@[simp] theorem State.setDraws_rJ (s : State) (n : Nat) : (s.setDraws n).rJ = s.rJ := rfl
@[simp] theorem State.setDraws_ov (s : State) (n : Nat) : (s.setDraws n).ov = s.ov := rfl
@[simp] theorem State.setDraws_ci (s : State) (n : Nat) : (s.setDraws n).ci = s.ci := rfl
@[simp] theorem State.setDraws_mem (s : State) (n : Nat) : (s.setDraws n).mem = s.mem := rfl
@[simp] theorem State.setDraws_pc (s : State) (n : Nat) : (s.setDraws n).pc = s.pc := rfl
@[simp] theorem State.setDraws_halted (s : State) (n : Nat) : (s.setDraws n).halted = s.halted := rfl
@[simp] theorem State.setDraws_pending (s : State) (n : Nat) : (s.setDraws n).pending = s.pending := rfl
@[simp] theorem State.setDraws_media (s : State) (n : Nat) : (s.setDraws n).media = s.media := rfl
@[simp] theorem State.setDraws_restarts (s : State) (n : Nat) : (s.setDraws n).restarts = s.restarts := rfl
@[simp] theorem State.setDraws_draws (s : State) (n : Nat) : (s.setDraws n).draws = n := rfl

@[simp] theorem State.setIndex_params (s : State) (n : Idx) (h : Short) : (s.setIndex n h).params = s.params := rfl
@[simp] theorem State.setIndex_rA (s : State) (n : Idx) (h : Short) : (s.setIndex n h).rA = s.rA := rfl
@[simp] theorem State.setIndex_rX (s : State) (n : Idx) (h : Short) : (s.setIndex n h).rX = s.rX := rfl
@[simp] theorem State.setIndex_rI (s : State) (n : Idx) (h : Short) : (s.setIndex n h).rI = s.rI.set n h := rfl
@[simp] theorem State.setIndex_rJ (s : State) (n : Idx) (h : Short) : (s.setIndex n h).rJ = s.rJ := rfl
@[simp] theorem State.setIndex_ov (s : State) (n : Idx) (h : Short) : (s.setIndex n h).ov = s.ov := rfl
@[simp] theorem State.setIndex_ci (s : State) (n : Idx) (h : Short) : (s.setIndex n h).ci = s.ci := rfl
@[simp] theorem State.setIndex_mem (s : State) (n : Idx) (h : Short) : (s.setIndex n h).mem = s.mem := rfl
@[simp] theorem State.setIndex_pc (s : State) (n : Idx) (h : Short) : (s.setIndex n h).pc = s.pc := rfl
@[simp] theorem State.setIndex_halted (s : State) (n : Idx) (h : Short) : (s.setIndex n h).halted = s.halted := rfl
@[simp] theorem State.setIndex_pending (s : State) (n : Idx) (h : Short) : (s.setIndex n h).pending = s.pending := rfl
@[simp] theorem State.setIndex_media (s : State) (n : Idx) (h : Short) : (s.setIndex n h).media = s.media := rfl
@[simp] theorem State.setIndex_restarts (s : State) (n : Idx) (h : Short) : (s.setIndex n h).restarts = s.restarts := rfl
@[simp] theorem State.setIndex_draws (s : State) (n : Idx) (h : Short) : (s.setIndex n h).draws = s.draws := rfl

@[simp] theorem State.setCell_params (s : State) (n : Nat) (w : Word) : (s.setCell n w).params = s.params := rfl
@[simp] theorem State.setCell_rA (s : State) (n : Nat) (w : Word) : (s.setCell n w).rA = s.rA := rfl
@[simp] theorem State.setCell_rX (s : State) (n : Nat) (w : Word) : (s.setCell n w).rX = s.rX := rfl
@[simp] theorem State.setCell_rI (s : State) (n : Nat) (w : Word) : (s.setCell n w).rI = s.rI := rfl
@[simp] theorem State.setCell_rJ (s : State) (n : Nat) (w : Word) : (s.setCell n w).rJ = s.rJ := rfl
@[simp] theorem State.setCell_ov (s : State) (n : Nat) (w : Word) : (s.setCell n w).ov = s.ov := rfl
@[simp] theorem State.setCell_ci (s : State) (n : Nat) (w : Word) : (s.setCell n w).ci = s.ci := rfl
@[simp] theorem State.setCell_mem (s : State) (n : Nat) (w : Word) : (s.setCell n w).mem = s.mem.write n w := rfl
@[simp] theorem State.setCell_pc (s : State) (n : Nat) (w : Word) : (s.setCell n w).pc = s.pc := rfl
@[simp] theorem State.setCell_halted (s : State) (n : Nat) (w : Word) : (s.setCell n w).halted = s.halted := rfl
@[simp] theorem State.setCell_pending (s : State) (n : Nat) (w : Word) : (s.setCell n w).pending = s.pending := rfl
@[simp] theorem State.setCell_media (s : State) (n : Nat) (w : Word) : (s.setCell n w).media = s.media := rfl
@[simp] theorem State.setCell_restarts (s : State) (n : Nat) (w : Word) : (s.setCell n w).restarts = s.restarts := rfl
@[simp] theorem State.setCell_draws (s : State) (n : Nat) (w : Word) : (s.setCell n w).draws = s.draws := rfl

@[simp] theorem State.advance_params (s : State) : s.advance.params = s.params := rfl
@[simp] theorem State.advance_rA (s : State) : s.advance.rA = s.rA := rfl
@[simp] theorem State.advance_rX (s : State) : s.advance.rX = s.rX := rfl
@[simp] theorem State.advance_rI (s : State) : s.advance.rI = s.rI := rfl
@[simp] theorem State.advance_rJ (s : State) : s.advance.rJ = s.rJ := rfl
@[simp] theorem State.advance_ov (s : State) : s.advance.ov = s.ov := rfl
@[simp] theorem State.advance_ci (s : State) : s.advance.ci = s.ci := rfl
@[simp] theorem State.advance_mem (s : State) : s.advance.mem = s.mem := rfl
@[simp] theorem State.advance_pc (s : State) : s.advance.pc = s.pc + 1 := rfl
@[simp] theorem State.advance_halted (s : State) : s.advance.halted = s.halted := rfl
@[simp] theorem State.advance_pending (s : State) : s.advance.pending = s.pending := rfl
@[simp] theorem State.advance_media (s : State) : s.advance.media = s.media := rfl
@[simp] theorem State.advance_restarts (s : State) : s.advance.restarts = s.restarts := rfl
@[simp] theorem State.advance_draws (s : State) : s.advance.draws = s.draws := rfl

@[simp] theorem State.jumpTo_params (s : State) (n : Nat) : (s.jumpTo n).params = s.params := rfl
@[simp] theorem State.jumpTo_rA (s : State) (n : Nat) : (s.jumpTo n).rA = s.rA := rfl
@[simp] theorem State.jumpTo_rX (s : State) (n : Nat) : (s.jumpTo n).rX = s.rX := rfl
@[simp] theorem State.jumpTo_rI (s : State) (n : Nat) : (s.jumpTo n).rI = s.rI := rfl
@[simp] theorem State.jumpTo_rJ (s : State) (n : Nat) : (s.jumpTo n).rJ = s.pc + 1 := rfl
@[simp] theorem State.jumpTo_ov (s : State) (n : Nat) : (s.jumpTo n).ov = s.ov := rfl
@[simp] theorem State.jumpTo_ci (s : State) (n : Nat) : (s.jumpTo n).ci = s.ci := rfl
@[simp] theorem State.jumpTo_mem (s : State) (n : Nat) : (s.jumpTo n).mem = s.mem := rfl
@[simp] theorem State.jumpTo_pc (s : State) (n : Nat) : (s.jumpTo n).pc = n := rfl
@[simp] theorem State.jumpTo_halted (s : State) (n : Nat) : (s.jumpTo n).halted = s.halted := rfl
@[simp] theorem State.jumpTo_pending (s : State) (n : Nat) : (s.jumpTo n).pending = s.pending := rfl
@[simp] theorem State.jumpTo_media (s : State) (n : Nat) : (s.jumpTo n).media = s.media := rfl
@[simp] theorem State.jumpTo_restarts (s : State) (n : Nat) : (s.jumpTo n).restarts = s.restarts := rfl
@[simp] theorem State.jumpTo_draws (s : State) (n : Nat) : (s.jumpTo n).draws = s.draws := rfl

@[simp] theorem State.raiseOv_params (s : State) (v : Bool) : (s.raiseOv v).params = s.params := rfl
@[simp] theorem State.raiseOv_rA (s : State) (v : Bool) : (s.raiseOv v).rA = s.rA := rfl
@[simp] theorem State.raiseOv_rX (s : State) (v : Bool) : (s.raiseOv v).rX = s.rX := rfl
@[simp] theorem State.raiseOv_rI (s : State) (v : Bool) : (s.raiseOv v).rI = s.rI := rfl
@[simp] theorem State.raiseOv_rJ (s : State) (v : Bool) : (s.raiseOv v).rJ = s.rJ := rfl
@[simp] theorem State.raiseOv_ov (s : State) (v : Bool) : (s.raiseOv v).ov = (s.ov || v) := rfl
@[simp] theorem State.raiseOv_ci (s : State) (v : Bool) : (s.raiseOv v).ci = s.ci := rfl
@[simp] theorem State.raiseOv_mem (s : State) (v : Bool) : (s.raiseOv v).mem = s.mem := rfl
@[simp] theorem State.raiseOv_pc (s : State) (v : Bool) : (s.raiseOv v).pc = s.pc := rfl
@[simp] theorem State.raiseOv_halted (s : State) (v : Bool) : (s.raiseOv v).halted = s.halted := rfl
@[simp] theorem State.raiseOv_pending (s : State) (v : Bool) : (s.raiseOv v).pending = s.pending := rfl
@[simp] theorem State.raiseOv_media (s : State) (v : Bool) : (s.raiseOv v).media = s.media := rfl
@[simp] theorem State.raiseOv_restarts (s : State) (v : Bool) : (s.raiseOv v).restarts = s.restarts := rfl
@[simp] theorem State.raiseOv_draws (s : State) (v : Bool) : (s.raiseOv v).draws = s.draws := rfl

@[simp] theorem State.tick_params (s : State) : s.tick.params = s.params := rfl
@[simp] theorem State.tick_rA (s : State) : s.tick.rA = s.rA := rfl
@[simp] theorem State.tick_rX (s : State) : s.tick.rX = s.rX := rfl
@[simp] theorem State.tick_rI (s : State) : s.tick.rI = s.rI := rfl
@[simp] theorem State.tick_rJ (s : State) : s.tick.rJ = s.rJ := rfl
@[simp] theorem State.tick_ov (s : State) : s.tick.ov = s.ov := rfl
@[simp] theorem State.tick_ci (s : State) : s.tick.ci = s.ci := rfl
@[simp] theorem State.tick_mem (s : State) : s.tick.mem = s.mem := rfl
@[simp] theorem State.tick_pc (s : State) : s.tick.pc = s.pc := rfl
@[simp] theorem State.tick_halted (s : State) : s.tick.halted = s.halted := rfl
@[simp] theorem State.tick_pending (s : State) : s.tick.pending = s.pending.map fun e => (e.1, ⟨e.2.op, e.2.block, e.2.wait - 1⟩) := rfl
@[simp] theorem State.tick_media (s : State) : s.tick.media = s.media := rfl
@[simp] theorem State.tick_restarts (s : State) : s.tick.restarts = s.restarts := rfl
@[simp] theorem State.tick_draws (s : State) : s.tick.draws = s.draws := rfl

@[simp] theorem State.start_params (s : State) (u : Nat) (op : Operation) : (s.start u op).params = s.params := rfl
@[simp] theorem State.start_rA (s : State) (u : Nat) (op : Operation) : (s.start u op).rA = s.rA := rfl
@[simp] theorem State.start_rX (s : State) (u : Nat) (op : Operation) : (s.start u op).rX = s.rX := rfl
@[simp] theorem State.start_rI (s : State) (u : Nat) (op : Operation) : (s.start u op).rI = s.rI := rfl
@[simp] theorem State.start_rJ (s : State) (u : Nat) (op : Operation) : (s.start u op).rJ = s.rJ := rfl
@[simp] theorem State.start_ov (s : State) (u : Nat) (op : Operation) : (s.start u op).ov = s.ov := rfl
@[simp] theorem State.start_ci (s : State) (u : Nat) (op : Operation) : (s.start u op).ci = s.ci := rfl
@[simp] theorem State.start_mem (s : State) (u : Nat) (op : Operation) : (s.start u op).mem = s.mem := rfl
@[simp] theorem State.start_pc (s : State) (u : Nat) (op : Operation) : (s.start u op).pc = s.pc := rfl
@[simp] theorem State.start_halted (s : State) (u : Nat) (op : Operation) : (s.start u op).halted = s.halted := rfl
@[simp] theorem State.start_pending (s : State) (u : Nat) (op : Operation) : (s.start u op).pending = sparseInsert s.pending u ⟨op, s.diskBlock u, Config.transferDelay s.draws⟩ := rfl
@[simp] theorem State.start_media (s : State) (u : Nat) (op : Operation) : (s.start u op).media = s.media := rfl
@[simp] theorem State.start_restarts (s : State) (u : Nat) (op : Operation) : (s.start u op).restarts = s.restarts := rfl
@[simp] theorem State.start_draws (s : State) (u : Nat) (op : Operation) : (s.start u op).draws = s.draws + 1 := rfl

/-- Two states with the same fields are the same state. -/
theorem State.ext_fields {s t : State} (h1 : s.params = t.params) (h2 : s.rA = t.rA) (h3 : s.rX = t.rX) (h4 : s.rI = t.rI)
    (h5 : s.rJ = t.rJ) (h6 : s.ov = t.ov) (h7 : s.ci = t.ci) (h8 : s.mem = t.mem) (h9 : s.pc = t.pc) (h10 : s.halted = t.halted)
    (h11 : s.pending = t.pending) (h12 : s.media = t.media) (h13 : s.restarts = t.restarts) (h14 : s.draws = t.draws) : s = t := by
  cases s
  cases t
  simp_all

@[simp] theorem Indexes.get_set_same (r : Indexes) (n : Idx) (h : Short) : (r.set n h).get n = h := by
  cases n <;> rfl

theorem Indexes.get_set_other (r : Indexes) {n k : Idx} (h : Short) (hne : k ≠ n) : (r.set n h).get k = r.get k := by
  cases n <;> cases k <;> first | rfl | exact absurd rfl hne

@[simp] theorem State.index_setIndex_same (s : State) (n : Idx) (h : Short) : (s.setIndex n h).index n = h :=
  Indexes.get_set_same s.rI n h

theorem State.index_setIndex_other (s : State) {n k : Idx} (h : Short) (hne : k ≠ n) : (s.setIndex n h).index k = s.index k :=
  Indexes.get_set_other s.rI h hne

end Sys2Proof.Machine
end

