-- ==== Sys2Proof/Laws/Ops.lean ====
section
/-! SUPPORT. The checks that instructions pass through: for each, what it means that a next state is reached through it, and what it
becomes when the check passes. -/

namespace Sys2Proof.Machine

variable {s t : State}

/-- A next state is reached through `withM` exactly by passing both checks. -/
theorem withM_next {a : Addr} {k : Int → Result} : withM a s k = .next t ↔ addrOk a s ∧ k (addrSum a s) = .next t := by
  unfold withM
  split
  · simp; omega
  · split
    · simp; omega
    · simp; omega

theorem withM_pass {a : Addr} {k : Int → Result} (h : addrOk a s) : withM a s k = k (addrSum a s) := by
  rw [withM, if_neg (by omega), if_neg (by omega)]

theorem withCell_next {m : Int} {k : Nat → Result} :
    withCell m s k = .next t ↔ (0 ≤ m ∧ m ≤ 3999) ∧ k m.toNat = .next t := by
  unfold withCell
  split <;> simp_all

theorem withCell_pass {c : Nat} {k : Nat → Result} (h : c ≤ 3999) : withCell (c : Int) s k = k c := by
  rw [withCell, if_pos (by omega)]
  rfl

theorem withBlock_next {m : Int} {n : Nat} {k : Nat → Result} :
    withBlock m n s k = .next t ↔ (0 ≤ m ∧ m + n ≤ 4000) ∧ k m.toNat = .next t := by
  unfold withBlock
  split <;> simp_all

theorem withBlock_pass {c n : Nat} {k : Nat → Result} (h : c + n ≤ 4000) : withBlock (c : Int) n s k = k c := by
  rw [withBlock, if_pos (by omega)]
  rfl

theorem withField_next {f : Nat} {k : Result} : withField f s k = .next t ↔ fieldOk f = true ∧ k = .next t := by
  unfold withField
  split <;> simp_all

theorem withField_pass {f : Nat} {k : Result} (h : fieldOk f = true) : withField f s k = k := by
  rw [withField, if_pos h]

theorem withoutHazard_next {changing : Bool} {lo n : Nat} {k : Result} :
    withoutHazard changing lo n s k = .next t ↔ s.hazard changing lo n = none ∧ k = .next t := by
  unfold withoutHazard
  split <;> simp_all

theorem withoutHazard_pass {changing : Bool} {lo n : Nat} {k : Result} (h : s.hazard changing lo n = none) :
    withoutHazard changing lo n s k = k := by
  simp only [withoutHazard, h]

theorem withUnit_next {u : Nat} {k : Result} : withUnit u s k = .next t ↔ unitOk u s ∧ k = .next t := by
  unfold withUnit
  split
  · simp; omega
  · split
    · rename_i h1 h2
      simp [unitOk, h2, Nat.not_lt.1 h1]
    · rename_i h1 h2
      simp [h2]

theorem withUnit_pass {u : Nat} {k : Result} (h : unitOk u s) : withUnit u s k = k := by
  rw [withUnit, if_neg (Nat.not_lt.2 h.1), if_pos h.2]

theorem withDirection_next {able : Bool} {u : Nat} {k : Result} :
    withDirection able u s k = .next t ↔ able = true ∧ k = .next t := by
  unfold withDirection
  split <;> simp_all

theorem withDirection_pass {able : Bool} {u : Nat} {k : Result} (h : able = true) : withDirection able u s k = k := by
  rw [withDirection, if_pos h]

/-- Through the wait a next state is the held state itself, or what follows once the unit is ready. -/
theorem whenReady_next {u : Nat} {k : Result} :
    whenReady u s k = .next t ↔ (s.busy u = true ∧ t = s) ∨ (s.busy u = false ∧ k = .next t) := by
  unfold whenReady
  split
  · simp_all
    exact eq_comm
  · simp_all

theorem whenReady_pass {u : Nat} {k : Result} (h : s.busy u = false) : whenReady u s k = k := by
  rw [whenReady, if_neg (by simp [h])]

/-- The operand of loads, arithmetic and comparisons: all checks pass, and V is the field of the cell. -/
theorem withOperand_next {a : Addr} {f : Nat} {k : Word → Result} :
    withOperand a f s k = .next t ↔ ∃ c, operandOk false a f c s ∧ k (loadField (s.cell c) f) = .next t := by
  unfold withOperand
  rw [withM_next, withField_next, withCell_next, withoutHazard_next]
  constructor
  · rintro ⟨h1, h2, h3, h4, h5⟩
    exact ⟨(addrSum a s).toNat, ⟨⟨h1, by omega, by omega⟩, h2, h4⟩, h5⟩
  · rintro ⟨c, ⟨⟨h1, h2, h3⟩, h4, h5⟩, h6⟩
    rw [h2]
    exact ⟨h1, h4, by omega, h5, h6⟩

theorem withOperand_pass {a : Addr} {f c : Nat} {k : Word → Result} (h : operandOk false a f c s) :
    withOperand a f s k = k (loadField (s.cell c) f) := by
  obtain ⟨⟨h1, h2, h3⟩, h4, h5⟩ := h
  rw [withOperand, withM_pass h1, withField_pass h4, h2, withCell_pass h3, withoutHazard_pass h5]

theorem withCount_next {a : Addr} {k : Nat → Result} :
    withCount a s k = .next t ↔ addrOk a s ∧ 0 ≤ addrSum a s ∧ k (addrSum a s).toNat = .next t := by
  unfold withCount
  rw [withM_next]
  split
  · simp; omega
  · simp; omega

theorem withCount_pass {a : Addr} {k : Nat → Result} {n : Nat} (h : addrOk a s) (hm : addrSum a s = (n : Int)) :
    withCount a s k = k n := by
  rw [withCount, withM_pass h, hm, if_neg (by omega)]
  rfl

/-- Fetch and decode reach a next state only through the instruction in the cell at the location counter. -/
theorem withInstruction_next {k : Instr → Result} :
    withInstruction s k = .next t ↔
      s.pc ≤ 3999 ∧ s.hazard false s.pc 1 = none ∧ ∃ i, decode (s.cell s.pc) = .ok i ∧ k i = .next t := by
  unfold withInstruction
  rw [withCell_next, withoutHazard_next]
  simp only [Int.toNat_natCast]
  cases h : decode (s.cell s.pc) with
  | ok i => simp
  | error e => cases e; simp

theorem withInstruction_pass {k : Instr → Result} {i : Instr} (hp : s.pc ≤ 3999) (hh : s.hazard false s.pc 1 = none)
    (hd : decode (s.cell s.pc) = .ok i) : withInstruction s k = k i := by
  rw [withInstruction, withCell_pass hp, withoutHazard_pass hh, hd]

/-- What a hazard means: the cell and unit reported are of a block that a unit owns. -/
theorem hazard_some {changing : Bool} {lo n c u : Nat} (h : s.hazard changing lo n = some (c, u)) :
    s.ownedBy changing c u ∧ lo ≤ c ∧ c < lo + n ∨ n = 0 ∨ unitSize u = 0 := by
  obtain ⟨⟨v, p⟩, hm, he⟩ := List.exists_of_findSome?_eq_some h
  unfold ownedCell at he
  cases ho : p.op.owns changing with
  | none => simp [ho] at he
  | some start =>
    simp only [ho] at he
    split at he
    · rename_i hlt
      cases he
      by_cases hn : n = 0
      · exact .inr (.inl hn)
      · by_cases hu : unitSize u = 0
        · exact .inr (.inr hu)
        · exact .inl ⟨⟨p, start, hm, ho, by omega, by omega⟩, by omega, by omega⟩
    · cases he

/-- Without a hazard no unit owns one of the cells. -/
theorem hazard_none {changing : Bool} {lo n : Nat} :
    s.hazard changing lo n = none ↔ ∀ e ∈ s.pending, ∀ start, e.2.op.owns changing = some start →
      lo + n ≤ start ∨ start + unitSize e.1 ≤ lo := by
  unfold State.hazard
  rw [List.findSome?_eq_none_iff]
  refine forall₂_congr fun e _ => ?_
  unfold ownedCell
  cases e.2.op.owns changing with
  | none => simp
  | some start =>
    simp only [ite_eq_right_iff, reduceCtorEq, imp_false, not_and_or, not_lt, Option.some.injEq, forall_eq']

end Sys2Proof.Machine
end

