-- ==== Sys2Proof/Laws/Exec.lean ====
section
/-! SUPPORT. What each shared meaning can do, said once: it answers the next state `t` exactly when its checks pass and `t` is the state
that its rule gives. With `Instr.family_induction` these are an inversion of `exec` on all 148 instructions. -/

namespace Sys2Proof.Machine

variable {s t u : State} {a : Addr}

/-- What a load puts into a register fits it: two bytes for an index register. -/
def fitsRegister (b : Nat) (r : Reg) (w : Word) : Prop :=
  match r with
  | .a => True
  | .x => True
  | .i _ => wordMag b w < b ^ 2

/-- The state with a register replaced by a word that fits it. -/
def putRegister (r : Reg) (w : Word) (s : State) : State :=
  match r with
  | .a => s.setA w
  | .x => s.setX w
  | .i n => s.setIndex n (shortOfMag s.b w.sign (wordMag s.b w))

theorem putLoaded_next {r : Reg} {w : Word} :
    putLoaded r w s = .next t ↔ fitsRegister s.b r w ∧ t = (putRegister r w s).advance := by
  rcases r with _ | _ | n
  · simp [putLoaded, fitsRegister, putRegister, eq_comm]
  · simp [putLoaded, fitsRegister, putRegister, eq_comm]
  · simp only [putLoaded, fitsRegister, putRegister]
    split
    · simp; omega
    · simp only [Host.Outcome.next.injEq]
      constructor
      · rintro rfl
        exact ⟨by omega, rfl⟩
      · exact fun h => h.2.symm

theorem loadInto_next {r : Reg} {neg : Bool} {f : Nat} :
    loadInto r neg a f s = .next t ↔
      ∃ c, operandOk false a f c s ∧ fitsRegister s.b r (negateIf neg (loadField (s.cell c) f)) ∧
        t = (putRegister r (negateIf neg (loadField (s.cell c) f)) s).advance := by
  rw [loadInto, withOperand_next]
  simp only [putLoaded_next]

theorem storeFrom_next {r : StoreSource} {f : Nat} :
    storeFrom r a f s = .next t ↔
      ∃ c, operandOk true a f c s ∧ t = (s.setCell c (storeField (s.cell c) (s.storedWord r) f)).advance := by
  unfold storeFrom
  rw [withM_next, withField_next, withCell_next, withoutHazard_next]
  simp only [Host.Outcome.next.injEq]
  constructor
  · rintro ⟨h1, h2, h3, h4, h5⟩
    exact ⟨(addrSum a s).toNat, ⟨⟨h1, by omega, by omega⟩, h2, h4⟩, h5.symm⟩
  · rintro ⟨c, ⟨⟨h1, h2, h3⟩, h4, h5⟩, h6⟩
    rw [h2]
    exact ⟨h1, h4, by omega, h5, h6.symm⟩

theorem arith_next {k : ArithKind} {f : Nat} :
    exec (.arith k a f) s = .next t ↔
      ∃ c, operandOk false a f c s ∧ t = (arithResult k (loadField (s.cell c) f) s).advance := by
  rw [exec_arith, withOperand_next]
  simp only [Host.Outcome.next.injEq, eq_comm]

/-- Division either overflows, and then rA and rX hold free words and OV is on, or leaves quotient and remainder. -/
theorem divide_cases (v : Word) (s : State) :
    ((wordMag s.b v = 0 ∨ wordMag s.b v ≤ wordMag s.b s.rA) ∧
        divide v s = { s with rA := s.freeWord 0, rX := s.freeWord 1, ov := true, draws := s.draws + 2 }) ∨
      (¬ (wordMag s.b v = 0 ∨ wordMag s.b v ≤ wordMag s.b s.rA) ∧
        divide v s = { s with
          rA := wordOfMag s.b (productSign s.rA.sign v.sign)
            ((wordMag s.b s.rA * wordSize s.b + wordMag s.b s.rX) / wordMag s.b v)
          rX := wordOfMag s.b s.rA.sign ((wordMag s.b s.rA * wordSize s.b + wordMag s.b s.rX) % wordMag s.b v) }) := by
  by_cases h : wordMag s.b v = 0 ∨ wordMag s.b v ≤ wordMag s.b s.rA
  · exact .inl ⟨h, if_pos h⟩
  · exact .inr ⟨h, if_neg h⟩

/-- An arithmetic operator changes rA, rX, OV and the counter of draws at most, and turns OV on at most. -/
theorem arithResult_frame (k : ArithKind) (v : Word) (s : State) :
    ∃ w x o n, arithResult k v s = { s with rA := w, rX := x, ov := s.ov || o, draws := n } ∧
      (k ≠ .mul → k ≠ .div → x = s.rX) ∧ (k = .mul → o = false) := by
  cases k
  · exact ⟨_, s.rX, _, s.draws, rfl, fun _ _ => rfl, nofun⟩
  · exact ⟨_, s.rX, _, s.draws, rfl, fun _ _ => rfl, nofun⟩
  · refine ⟨(multiply v s).rA, (multiply v s).rX, false, s.draws, ?_, fun h => absurd rfl h, fun _ => rfl⟩
    rw [Bool.or_false]
    rfl
  · rcases divide_cases v s with ⟨_, h⟩ | ⟨_, h⟩
    · exact ⟨_, _, true, _, h.trans (by rw [Bool.or_true]), fun _ h => absurd rfl h, nofun⟩
    · exact ⟨_, _, false, _, h.trans (by rw [Bool.or_false]), fun _ h => absurd rfl h, nofun⟩

/-- NUM changes rA, and where the number does not fit a word OV and the counter of draws; it turns OV on at most. -/
theorem toNumeric_frame (s : State) :
    ∃ w o n, toNumeric s = { s with rA := w, ov := s.ov || o, draws := n } := by
  by_cases h : digitsValue (wordBytes s.rA ++ wordBytes s.rX) < wordSize s.b
  · refine ⟨(toNumeric s).rA, false, s.draws, ?_⟩
    rw [Bool.or_false, toNumeric, if_pos h]
    rfl
  · exact ⟨_, _, _, if_neg h⟩

theorem floatingStop_next {c : Nat} : floatingStop c a s ≠ .next t := by
  unfold floatingStop
  rw [Ne, withM_next]
  simp

theorem enter_next {r : Reg} {neg : Bool} :
    enter r neg a s = .next t ↔
      addrOk a s ∧
        t = (enterReg r (if neg then (addrSign a (addrSum a s)).neg else addrSign a (addrSum a s)) (addrSum a s).natAbs s).advance := by
  rw [enter, withM_next, Host.Outcome.next.injEq, eq_comm (a := t)]

theorem addToIndex_next {n : Idx} {v : Int} :
    addToIndex n v s = .next t ↔
      (shortVal s.b (s.index n) + v).natAbs < s.b ^ 2 ∧
        t = (s.setIndex n (shortOfMag s.b
          (if shortVal s.b (s.index n) + v = 0 then (s.index n).sign else Sign.ofInt (shortVal s.b (s.index n) + v))
          (shortVal s.b (s.index n) + v).natAbs)).advance := by
  unfold addToIndex
  simp only
  split
  · simp; omega
  · simp only [Host.Outcome.next.injEq]
    constructor
    · rintro rfl
      exact ⟨by omega, rfl⟩
    · exact fun h => h.2.symm

/-- What INC and DEC do to a register, once the sum fits it. -/
theorem increase_next {r : Reg} {neg : Bool} :
    increase r neg a s = .next t ↔
      addrOk a s ∧
        ((r = .a ∧ t = (addToA (if neg then -(addrSum a s) else addrSum a s) s).advance) ∨
          (r = .x ∧ t = (addToX (if neg then -(addrSum a s) else addrSum a s) s).advance) ∨
          ∃ n, r = .i n ∧ addToIndex n (if neg then -(addrSum a s) else addrSum a s) s = .next t) := by
  rw [increase, withM_next]
  rcases r with _ | _ | n <;> simp [eq_comm]

theorem compareReg_next {r : Reg} {f : Nat} :
    compareReg r a f s = .next t ↔
      ∃ c, operandOk false a f c s ∧
        t = (s.setCi (compareVals (wordVal s.b (loadField (s.regWord r) f)) (wordVal s.b (loadField (s.cell c) f)))).advance := by
  rw [compareReg, withOperand_next]
  simp only [Host.Outcome.next.injEq, eq_comm]

theorem withCellM_next {k : Nat → Result} :
    (withM a s fun m => withCell m s k) = .next t ↔ ∃ c, cellOk a c s ∧ k c = .next t := by
  rw [withM_next, withCell_next]
  constructor
  · rintro ⟨h1, h2, h3⟩
    exact ⟨(addrSum a s).toNat, ⟨h1, by omega, by omega⟩, h3⟩
  · rintro ⟨c, ⟨h1, h2, h3⟩, h4⟩
    rw [h2]
    exact ⟨h1, by omega, h4⟩

theorem jumpWhen_next {taken : Bool} :
    jumpWhen taken a s u = .next t ↔ ∃ c, cellOk a c s ∧ t = if taken then u.jumpTo c else u.advance := by
  rw [jumpWhen, withCellM_next]
  simp only [Host.Outcome.next.injEq, eq_comm]

theorem jumpWhen_pass {taken : Bool} {c : Nat} (h : cellOk a c s) :
    jumpWhen taken a s u = .next (if taken then u.jumpTo c else u.advance) := by
  rw [jumpWhen, withM_pass h.1, h.2.1, withCell_pass h.2.2]

theorem execJsj_next : execJsj a s = .next t ↔ ∃ c, cellOk a c s ∧ t = s.setPc c := by
  rw [execJsj, withCellM_next]
  simp only [Host.Outcome.next.injEq, eq_comm]

theorem jumpOnUnit_next {taken : Bool} {f : Nat} :
    jumpOnUnit taken a f s = .next t ↔
      unitOk f s ∧ ∃ c, cellOk a c s ∧ t = if taken then s.jumpTo c else s.advance := by
  unfold jumpOnUnit
  rw [withM_next, withUnit_next, withCell_next, Host.Outcome.next.injEq]
  constructor
  · rintro ⟨h1, h2, h3, rfl⟩
    exact ⟨h2, (addrSum a s).toNat, ⟨h1, by omega, by omega⟩, rfl⟩
  · rintro ⟨h1, c, ⟨h2, h3, h4⟩, rfl⟩
    rw [h3]
    exact ⟨h2, h1, by omega, rfl⟩

theorem jumpOnUnit_pass {taken : Bool} {f c : Nat} (hu : unitOk f s) (h : cellOk a c s) :
    jumpOnUnit taken a f s = .next (if taken then s.jumpTo c else s.advance) := by
  rw [jumpOnUnit, withM_pass h.1, withUnit_pass hu, h.2.1, withCell_pass h.2.2]

theorem execHlt_next : execHlt a s = .next t ↔ addrOk a s ∧ t = (s.setHalted true).advance := by
  rw [execHlt, withM_next, Host.Outcome.next.injEq, eq_comm (a := t)]

theorem shift_next {k : ShiftKind} :
    exec (.shift k a) s = .next t ↔
      addrOk a s ∧ 0 ≤ addrSum a s ∧ t = (shiftResult k (addrSum a s).toNat s).advance := by
  rw [exec_shift, withCount_next, Host.Outcome.next.injEq, eq_comm (a := t)]

/-- MOVE: no word, or a block moved whose checks all pass. -/
theorem execMove_next {f : Nat} :
    execMove a f s = .next t ↔
      addrOk a s ∧
        ((f = 0 ∧ t = s.advance) ∨
          ∃ src dst : Nat, 0 < f ∧ blockOk a src f s ∧ shortVal s.b (s.index .i1) = (dst : Int) ∧ dst + f ≤ 4000 ∧
            s.hazard false src f = none ∧ s.hazard true dst f = none ∧
            t = ((s.setMem (s.mem.moveWords src dst f)).setIndex .i1 (shortOfMag s.b .plus (dst + f))).advance) := by
  unfold execMove
  rw [withM_next]
  refine and_congr_right fun ha => ?_
  split
  · rename_i hf
    simp only [Host.Outcome.next.injEq]
    constructor
    · exact fun h => .inl ⟨hf, h.symm⟩
    · rintro (⟨_, h⟩ | ⟨_, _, h, _⟩)
      · exact h.symm
      · omega
  · rename_i hf
    rw [withBlock_next, withBlock_next, withoutHazard_next, withoutHazard_next, Host.Outcome.next.injEq]
    constructor
    · rintro ⟨h1, h2, h3, h4, rfl⟩
      refine .inr ⟨(addrSum a s).toNat, (shortVal s.b (s.index .i1)).toNat, by omega, ⟨ha, by omega, by omega⟩, by omega, by omega, h3, h4, rfl⟩
    · rintro (⟨h, _⟩ | ⟨src, dst, _, ⟨_, h2, h3⟩, h4, h5, h6, h7, rfl⟩)
      · omega
      · rw [h2, h4]
        exact ⟨by omega, by omega, h6, h7, rfl⟩

theorem withInput_next {f : Nat} {k : List Word → Media → Result} :
    withInput f s k = .next t ↔
      ∃ words media, s.media.input f (diskSelect s.b s.rX) = some (words, media) ∧ k words media = .next t := by
  unfold withInput
  cases h : s.media.input f (diskSelect s.b s.rX) with
  | none =>
    simp only [reduceCtorEq, false_and, exists_false, iff_false]
    split <;> simp
  | some p =>
    obtain ⟨words, media⟩ := p
    constructor
    · exact fun h => ⟨words, media, rfl, h⟩
    · rintro ⟨_, _, h, h2⟩
      cases h
      exact h2

/-- The media after a control operation of a unit, where the spec gives it one. -/
def controlMedia (u : Nat) (m : Int) (s : State) : Option Media :=
  if u ≤ 7 then
    if m = 0 then some (s.media.setTape u (tapeRewind (s.media.tape u)))
    else if m < 0 then some (s.media.setTape u (tapeBack (s.media.tape u) m.natAbs))
    else (tapeForward (s.media.tape u) m.natAbs).map (s.media.setTape u)
  else if u = 16 ∨ u = 17 ∨ m ≠ 0 then none
  else if u ≤ 15 then some s.media
  else if u = 18 then some { s.media with printed := s.media.printed ++ [.pageBreak] }
  else some { s.media with ppos := 0 }

theorem withControl_next {f : Nat} {m : Int} {k : Media → Result} :
    withControl f m s k = .next t ↔ ∃ media, controlMedia f m s = some media ∧ k media = .next t := by
  unfold withControl controlMedia
  split_ifs
  · simp
  · simp
  · cases tapeForward (s.media.tape f) m.natAbs <;> simp
  · simp
  · simp
  · simp
  · simp

theorem withControl_pass {f : Nat} {m : Int} {k : Media → Result} {media : Media} (h : controlMedia f m s = some media) :
    withControl f m s k = k media := by
  unfold withControl
  unfold controlMedia at h
  split_ifs at h ⊢ <;> simp_all
  obtain ⟨x, h1, h2⟩ := h
  simp only [h1, h2]

/-- IN: held with nothing changed, or started with the next block of the medium. -/
theorem execInp_next {f : Nat} :
    execInp a f s = .next t ↔
      ∃ lo, blockOk a lo (unitSize f) s ∧ unitOk f s ∧ canInput f = true ∧
        ((s.busy f = true ∧ t = s) ∨
          (s.busy f = false ∧ s.hazard true lo (unitSize f) = none ∧
            ∃ words media, s.media.input f (diskSelect s.b s.rX) = some (words, media) ∧
              t = ((s.setMedia media).start f (.input lo words)).advance)) := by
  unfold execInp
  rw [withM_next, withUnit_next, withDirection_next, withBlock_next, whenReady_next, withoutHazard_next, withInput_next]
  simp only [Host.Outcome.next.injEq]
  constructor
  · rintro ⟨h1, h2, h3, h4, h5⟩
    refine ⟨(addrSum a s).toNat, ⟨h1, by omega, by omega⟩, h2, h3, ?_⟩
    rcases h5 with h | ⟨h, h5, w, m, h6, h7⟩
    · exact .inl h
    · exact .inr ⟨h, h5, w, m, h6, h7.symm⟩
  · rintro ⟨lo, ⟨h1, h2, h3⟩, h4, h5, h6⟩
    rw [h2]
    refine ⟨h1, h4, h5, by omega, ?_⟩
    rcases h6 with h | ⟨h, h6, w, m, h7, h8⟩
    · exact .inl h
    · exact .inr ⟨h, h6, w, m, h7, h8.symm⟩

/-- OUT: held with nothing changed, or started with the block sent to the medium. -/
theorem execOut_next {f : Nat} :
    execOut a f s = .next t ↔
      ∃ lo, blockOk a lo (unitSize f) s ∧ unitOk f s ∧ canOutput f = true ∧
        ((s.busy f = true ∧ t = s) ∨
          (s.busy f = false ∧ s.hazard false lo (unitSize f) = none ∧
            t = ((s.setMedia (s.media.output f (diskSelect s.b s.rX) (s.mem.readBlock lo (unitSize f)))).start f (.output lo)).advance)) := by
  unfold execOut
  rw [withM_next, withUnit_next, withDirection_next, withBlock_next, whenReady_next, withoutHazard_next]
  simp only [Host.Outcome.next.injEq]
  constructor
  · rintro ⟨h1, h2, h3, h4, h5⟩
    refine ⟨(addrSum a s).toNat, ⟨h1, by omega, by omega⟩, h2, h3, ?_⟩
    rcases h5 with h | ⟨h, h5, h6⟩
    · exact .inl h
    · exact .inr ⟨h, h5, h6.symm⟩
  · rintro ⟨lo, ⟨h1, h2, h3⟩, h4, h5, h6⟩
    rw [h2]
    refine ⟨h1, h4, h5, by omega, ?_⟩
    rcases h6 with h | ⟨h, h6, h7⟩
    · exact .inl h
    · exact .inr ⟨h, h6, h7.symm⟩

/-- IOC: held with nothing changed, or started with its control operation performed. -/
theorem execIoc_next {f : Nat} :
    execIoc a f s = .next t ↔
      addrOk a s ∧ unitOk f s ∧
        ((s.busy f = true ∧ t = s) ∨
          (s.busy f = false ∧ ∃ media, controlMedia f (addrSum a s) s = some media ∧
            t = ((s.setMedia media).start f .control).advance)) := by
  unfold execIoc
  rw [withM_next, withUnit_next, whenReady_next, withControl_next]
  simp only [Host.Outcome.next.injEq, eq_comm (a := t)]

end Sys2Proof.Machine
end

