-- ==== Sys2Proof/Laws/Notation.lean ====
section
/-! SUPPORT. The rows of `OPTAB` as the notation reads them: a name is the name of one row, and which F byte a line gives. -/

namespace Sys2Proof

/-- No two rows of `OPTAB` have one name (spec/30_encoding.md R90). -/
theorem optab_names_nodup : (optab.map OpRow.name).Nodup := by decide +kernel

/-- The row of a name is the one that the search by name finds. -/
theorem optab_find_name {r : OpRow} (hr : r ∈ optab) : optab.find? (fun q => q.name == r.name) = some r := by
  obtain ⟨q, hq⟩ := Option.isSome_iff_exists.1 (List.find?_isSome (p := fun q : OpRow => q.name == r.name).2 ⟨r, hr, by simp⟩)
  rw [hq, List.inj_on_of_nodup_map optab_names_nodup (List.mem_of_find?_eq_some hq) hr (by simpa using List.find?_some hq)]

/-- The F byte of a line: the selecting F where none is written, else the F written or the normal F. -/
theorem OpRow.fByte_eq_some {r : OpRow} {f : Option Nat} {g : Nat} :
    r.fByte f = some g ↔ (r.sel = some g ∧ f = none) ∨ (r.sel = none ∧ f.getD r.normalF = g) := by
  unfold OpRow.fByte
  split <;> simp_all

/-- What a line denotes, by the row of its name (R99, R100). -/
theorem assemble_eq_some {b : Nat} {r : OpRow} (hr : r ∈ optab) {s : Sign} {aa ix : Nat} {f : Option Nat} {w : Word} :
    assemble b r.name s aa ix f = some w ↔ ∃ g, r.fByte f = some g ∧ (Addr.make b s aa ix).word g r.c = w := by
  simp [assemble, optab_find_name hr]

/-- Only the name of a row denotes a word (R99). -/
theorem assemble_isSome_name {b : Nat} {name : String} {s : Sign} {aa ix : Nat} {f : Option Nat} {w : Word}
    (h : assemble b name s aa ix f = some w) : ∃ r ∈ optab, r.name = name := by
  obtain ⟨r, hr, -⟩ := Option.bind_eq_some_iff.1 h
  exact ⟨r, List.mem_of_find?_eq_some hr, by simpa using List.find?_some hr⟩

end Sys2Proof
end

