-- ==== Sys2Proof/Laws/Numbers.lean ====
section
/-! SUPPORT. Words and numbers: the word of a sign and a magnitude has that magnitude, and a word is known by its sign and
magnitude. -/

namespace Sys2Proof.Machine

@[simp] theorem wordOfMag_sign (b : Nat) (s : Sign) (m : Nat) : (wordOfMag b s m).sign = s := rfl

@[simp] theorem shortOfMag_sign (b : Nat) (s : Sign) (m : Nat) : (shortOfMag b s m).sign = s := rfl

@[simp] theorem wordOfBytes_sign (s : Sign) (l : List Nat) : (wordOfBytes s l).sign = s := rfl

/-- The bytes of `wordOfMag` are bytes. -/
theorem wordOfMag_bytes {b : Nat} (hb : 0 < b) (s : Sign) (m : Nat) :
    (wordOfMag b s m).b1 < b ∧ (wordOfMag b s m).b2 < b ∧ (wordOfMag b s m).b3 < b ∧ (wordOfMag b s m).b4 < b ∧
      (wordOfMag b s m).b5 < b :=
  ⟨Nat.mod_lt _ hb, Nat.mod_lt _ hb, Nat.mod_lt _ hb, Nat.mod_lt _ hb, Nat.mod_lt _ hb⟩

/-- `mag(word(s, m)) = m mod W`; below W it is m. -/
theorem wordMag_ofMag_mod (b : Nat) (s : Sign) (m : Nat) : wordMag b (wordOfMag b s m) = m % b ^ 5 := by
  simp only [wordMag, wordOfMag]
  have h1 := Nat.mod_mul (x := m) (a := b) (b := b)
  have h2 := Nat.mod_mul (x := m) (a := b ^ 2) (b := b)
  have h3 := Nat.mod_mul (x := m) (a := b ^ 3) (b := b)
  have h4 := Nat.mod_mul (x := m) (a := b ^ 4) (b := b)
  rw [show b * b = b ^ 2 by ring] at h1
  rw [show b ^ 2 * b = b ^ 3 by ring] at h2
  rw [show b ^ 3 * b = b ^ 4 by ring] at h3
  rw [show b ^ 4 * b = b ^ 5 by ring] at h4
  rw [h4, h3, h2, h1]
  ring

theorem wordMag_ofMag {b m : Nat} (s : Sign) (h : m < b ^ 5) : wordMag b (wordOfMag b s m) = m := by
  rw [wordMag_ofMag_mod, Nat.mod_eq_of_lt h]

/-- A magnitude is below W. -/
theorem wordMag_lt {b : Nat} {w : Word} (h1 : w.b1 < b) (h2 : w.b2 < b) (h3 : w.b3 < b) (h4 : w.b4 < b) (h5 : w.b5 < b) :
    wordMag b w < b ^ 5 := by
  simp only [wordMag]
  have e5 : b ^ 5 = b ^ 4 * b := by ring
  have e4 : b ^ 4 = b ^ 3 * b := by ring
  have e3 : b ^ 3 = b ^ 2 * b := by ring
  have e2 : b ^ 2 = b * b := by ring
  have i1 : (w.b1 + 1) * b ^ 4 ≤ b * b ^ 4 := Nat.mul_le_mul_right _ h1
  have i2 : (w.b2 + 1) * b ^ 3 ≤ b * b ^ 3 := Nat.mul_le_mul_right _ h2
  have i3 : (w.b3 + 1) * b ^ 2 ≤ b * b ^ 2 := Nat.mul_le_mul_right _ h3
  have i4 : (w.b4 + 1) * b ≤ b * b := Nat.mul_le_mul_right _ h4
  nlinarith

theorem shortMag_ofMag_mod (b : Nat) (s : Sign) (m : Nat) : shortMag b (shortOfMag b s m) = m % b ^ 2 := by
  simp only [shortMag, shortOfMag]
  have h1 := Nat.mod_mul (x := m) (a := b) (b := b)
  rw [show b * b = b ^ 2 by ring] at h1
  rw [h1]
  ring

theorem shortMag_ofMag {b m : Nat} (s : Sign) (h : m < b ^ 2) : shortMag b (shortOfMag b s m) = m := by
  rw [shortMag_ofMag_mod, Nat.mod_eq_of_lt h]

theorem shortMag_lt {b : Nat} {h : Short} (h4 : h.b4 < b) (h5 : h.b5 < b) : shortMag b h < b ^ 2 := by
  simp only [shortMag]
  have i4 : (h.b4 + 1) * b ≤ b * b := Nat.mul_le_mul_right _ h4
  nlinarith

@[simp] theorem wordMag_shortAsWord (b : Nat) (h : Short) : wordMag b (shortAsWord h) = shortMag b h := by
  simp [wordMag, shortAsWord, shortMag]

@[simp] theorem wordVal_shortAsWord (b : Nat) (h : Short) : wordVal b (shortAsWord h) = shortVal b h := by
  simp [wordVal, shortVal]
  rfl

@[simp] theorem wordBytes_wordOfBytes (s : Sign) (a b c d e : Nat) (l : List Nat) :
    wordBytes (wordOfBytes s (a :: b :: c :: d :: e :: l)) = [a, b, c, d, e] := rfl

@[simp] theorem wordOfBytes_wordBytes (w : Word) : wordOfBytes w.sign (wordBytes w) = w := rfl

theorem Sign.apply_natAbs (s : Sign) (m : Nat) : (s.apply m).natAbs = m := by
  cases s <;> simp [Sign.apply]

theorem Sign.apply_zero (s : Sign) : s.apply 0 = 0 := by
  cases s <;> rfl

theorem Sign.apply_ofInt (v : Int) : (Sign.ofInt v).apply v.natAbs = v := by
  unfold Sign.ofInt
  split <;> simp only [Sign.apply] <;> omega

theorem Sign.apply_neg (s : Sign) (m : Nat) : s.neg.apply m = -(s.apply m) := by
  cases s <;> simp [Sign.neg, Sign.apply]

theorem wordVal_natAbs (b : Nat) (w : Word) : (wordVal b w).natAbs = wordMag b w :=
  Sign.apply_natAbs _ _

/-- The value of the word of a sign and a magnitude below W. -/
theorem wordVal_ofMag {b m : Nat} (s : Sign) (h : m < b ^ 5) : wordVal b (wordOfMag b s m) = s.apply m := by
  rw [wordVal, wordMag_ofMag s h, wordOfMag_sign]

theorem shortVal_ofMag {b m : Nat} (s : Sign) (h : m < b ^ 2) : shortVal b (shortOfMag b s m) = s.apply m := by
  rw [shortVal, shortMag_ofMag s h, shortOfMag_sign]

end Sys2Proof.Machine
end

