-- ==== Sys2Proof/Laws/PerInstr.lean ====
section
/-! SUPPORT. The family EncodingFits of LAWS.json, one lemma per instruction: on every MIX the encoding of a well-formed instruction is
a word, its operation code and selecting F fitting the smallest byte (spec/30_encoding.md R90, the checks after the table). -/

namespace Sys2Proof.Laws

/-- Every byte of the encoding is below every byte size for which the instruction is well-formed. -/
def EncodingFits.Statement (i : Instr) : Prop :=
  ∀ b : Nat, 64 ≤ b → i.wellFormed b = true →
    (encode i).b1 < b ∧ (encode i).b2 < b ∧ (encode i).b3 < b ∧ (encode i).b4 < b ∧ (encode i).b5 < b

/-- A word made of a well-formed address part and two small bytes. -/
theorem EncodingFits.addr {b f c : Nat} {a : Addr} (ha : a.wellFormed b = true) (hf : f < b) (hc : c < b) :
    (a.word f c).b1 < b ∧ (a.word f c).b2 < b ∧ (a.word f c).b3 < b ∧ (a.word f c).b4 < b ∧ (a.word f c).b5 < b := by
  simp only [Addr.wellFormed, Bool.and_eq_true, decide_eq_true_eq] at ha
  exact ⟨ha.1.1, ha.1.2, ha.2, hf, hc⟩

/-- The same where F is an operand. -/
theorem EncodingFits.addrF {b f c : Nat} {a : Addr} (h : (a.wellFormed b && decide (f < b)) = true) (hc : c < b) :
    (a.word f c).b1 < b ∧ (a.word f c).b2 < b ∧ (a.word f c).b3 < b ∧ (a.word f c).b4 < b ∧ (a.word f c).b5 < b := by
  simp only [Bool.and_eq_true, decide_eq_true_eq] at h
  exact EncodingFits.addr h.1 h.2 hc

theorem EncodingFits.nop (a : Addr) (f : Nat) : EncodingFits.Statement (.nop a f) :=
  fun _ hb h => EncodingFits.addrF h (by omega)

theorem EncodingFits.add (a : Addr) (f : Nat) : EncodingFits.Statement (.add a f) :=
  fun _ hb h => EncodingFits.addrF (Bool.and_eq_true_iff.1 h).1 (by omega)

theorem EncodingFits.sub (a : Addr) (f : Nat) : EncodingFits.Statement (.sub a f) :=
  fun _ hb h => EncodingFits.addrF (Bool.and_eq_true_iff.1 h).1 (by omega)

theorem EncodingFits.mul (a : Addr) (f : Nat) : EncodingFits.Statement (.mul a f) :=
  fun _ hb h => EncodingFits.addrF (Bool.and_eq_true_iff.1 h).1 (by omega)

theorem EncodingFits.div (a : Addr) (f : Nat) : EncodingFits.Statement (.div a f) :=
  fun _ hb h => EncodingFits.addrF (Bool.and_eq_true_iff.1 h).1 (by omega)

theorem EncodingFits.fadd (a : Addr) : EncodingFits.Statement (.fadd a) :=
  fun _ hb h => EncodingFits.addr h (by omega) (by omega)

theorem EncodingFits.fsub (a : Addr) : EncodingFits.Statement (.fsub a) :=
  fun _ hb h => EncodingFits.addr h (by omega) (by omega)

theorem EncodingFits.fmul (a : Addr) : EncodingFits.Statement (.fmul a) :=
  fun _ hb h => EncodingFits.addr h (by omega) (by omega)

theorem EncodingFits.fdiv (a : Addr) : EncodingFits.Statement (.fdiv a) :=
  fun _ hb h => EncodingFits.addr h (by omega) (by omega)

theorem EncodingFits.num (a : Addr) : EncodingFits.Statement (.num a) :=
  fun _ hb h => EncodingFits.addr h (by omega) (by omega)

theorem EncodingFits.char (a : Addr) : EncodingFits.Statement (.char a) :=
  fun _ hb h => EncodingFits.addr h (by omega) (by omega)

theorem EncodingFits.hlt (a : Addr) : EncodingFits.Statement (.hlt a) :=
  fun _ hb h => EncodingFits.addr h (by omega) (by omega)

theorem EncodingFits.sla (a : Addr) : EncodingFits.Statement (.sla a) :=
  fun _ hb h => EncodingFits.addr h (by omega) (by omega)

theorem EncodingFits.sra (a : Addr) : EncodingFits.Statement (.sra a) :=
  fun _ hb h => EncodingFits.addr h (by omega) (by omega)

theorem EncodingFits.slax (a : Addr) : EncodingFits.Statement (.slax a) :=
  fun _ hb h => EncodingFits.addr h (by omega) (by omega)

theorem EncodingFits.srax (a : Addr) : EncodingFits.Statement (.srax a) :=
  fun _ hb h => EncodingFits.addr h (by omega) (by omega)

theorem EncodingFits.slc (a : Addr) : EncodingFits.Statement (.slc a) :=
  fun _ hb h => EncodingFits.addr h (by omega) (by omega)

theorem EncodingFits.src (a : Addr) : EncodingFits.Statement (.src a) :=
  fun _ hb h => EncodingFits.addr h (by omega) (by omega)

theorem EncodingFits.move (a : Addr) (f : Nat) : EncodingFits.Statement (.move a f) :=
  fun _ hb h => EncodingFits.addrF h (by omega)

theorem EncodingFits.lda (a : Addr) (f : Nat) : EncodingFits.Statement (.lda a f) :=
  fun _ hb h => EncodingFits.addrF h (by omega)

theorem EncodingFits.ld1 (a : Addr) (f : Nat) : EncodingFits.Statement (.ld1 a f) :=
  fun _ hb h => EncodingFits.addrF h (by omega)

theorem EncodingFits.ld2 (a : Addr) (f : Nat) : EncodingFits.Statement (.ld2 a f) :=
  fun _ hb h => EncodingFits.addrF h (by omega)

theorem EncodingFits.ld3 (a : Addr) (f : Nat) : EncodingFits.Statement (.ld3 a f) :=
  fun _ hb h => EncodingFits.addrF h (by omega)

theorem EncodingFits.ld4 (a : Addr) (f : Nat) : EncodingFits.Statement (.ld4 a f) :=
  fun _ hb h => EncodingFits.addrF h (by omega)

theorem EncodingFits.ld5 (a : Addr) (f : Nat) : EncodingFits.Statement (.ld5 a f) :=
  fun _ hb h => EncodingFits.addrF h (by omega)

theorem EncodingFits.ld6 (a : Addr) (f : Nat) : EncodingFits.Statement (.ld6 a f) :=
  fun _ hb h => EncodingFits.addrF h (by omega)

theorem EncodingFits.ldx (a : Addr) (f : Nat) : EncodingFits.Statement (.ldx a f) :=
  fun _ hb h => EncodingFits.addrF h (by omega)

theorem EncodingFits.ldan (a : Addr) (f : Nat) : EncodingFits.Statement (.ldan a f) :=
  fun _ hb h => EncodingFits.addrF h (by omega)

theorem EncodingFits.ld1n (a : Addr) (f : Nat) : EncodingFits.Statement (.ld1n a f) :=
  fun _ hb h => EncodingFits.addrF h (by omega)

theorem EncodingFits.ld2n (a : Addr) (f : Nat) : EncodingFits.Statement (.ld2n a f) :=
  fun _ hb h => EncodingFits.addrF h (by omega)

theorem EncodingFits.ld3n (a : Addr) (f : Nat) : EncodingFits.Statement (.ld3n a f) :=
  fun _ hb h => EncodingFits.addrF h (by omega)

theorem EncodingFits.ld4n (a : Addr) (f : Nat) : EncodingFits.Statement (.ld4n a f) :=
  fun _ hb h => EncodingFits.addrF h (by omega)

theorem EncodingFits.ld5n (a : Addr) (f : Nat) : EncodingFits.Statement (.ld5n a f) :=
  fun _ hb h => EncodingFits.addrF h (by omega)

theorem EncodingFits.ld6n (a : Addr) (f : Nat) : EncodingFits.Statement (.ld6n a f) :=
  fun _ hb h => EncodingFits.addrF h (by omega)

theorem EncodingFits.ldxn (a : Addr) (f : Nat) : EncodingFits.Statement (.ldxn a f) :=
  fun _ hb h => EncodingFits.addrF h (by omega)

theorem EncodingFits.sta (a : Addr) (f : Nat) : EncodingFits.Statement (.sta a f) :=
  fun _ hb h => EncodingFits.addrF h (by omega)

theorem EncodingFits.st1 (a : Addr) (f : Nat) : EncodingFits.Statement (.st1 a f) :=
  fun _ hb h => EncodingFits.addrF h (by omega)

theorem EncodingFits.st2 (a : Addr) (f : Nat) : EncodingFits.Statement (.st2 a f) :=
  fun _ hb h => EncodingFits.addrF h (by omega)

theorem EncodingFits.st3 (a : Addr) (f : Nat) : EncodingFits.Statement (.st3 a f) :=
  fun _ hb h => EncodingFits.addrF h (by omega)

theorem EncodingFits.st4 (a : Addr) (f : Nat) : EncodingFits.Statement (.st4 a f) :=
  fun _ hb h => EncodingFits.addrF h (by omega)

theorem EncodingFits.st5 (a : Addr) (f : Nat) : EncodingFits.Statement (.st5 a f) :=
  fun _ hb h => EncodingFits.addrF h (by omega)

theorem EncodingFits.st6 (a : Addr) (f : Nat) : EncodingFits.Statement (.st6 a f) :=
  fun _ hb h => EncodingFits.addrF h (by omega)

theorem EncodingFits.stx (a : Addr) (f : Nat) : EncodingFits.Statement (.stx a f) :=
  fun _ hb h => EncodingFits.addrF h (by omega)

theorem EncodingFits.stj (a : Addr) (f : Nat) : EncodingFits.Statement (.stj a f) :=
  fun _ hb h => EncodingFits.addrF h (by omega)

theorem EncodingFits.stz (a : Addr) (f : Nat) : EncodingFits.Statement (.stz a f) :=
  fun _ hb h => EncodingFits.addrF h (by omega)

theorem EncodingFits.jbus (a : Addr) (f : Nat) : EncodingFits.Statement (.jbus a f) :=
  fun _ hb h => EncodingFits.addrF h (by omega)

theorem EncodingFits.ioc (a : Addr) (f : Nat) : EncodingFits.Statement (.ioc a f) :=
  fun _ hb h => EncodingFits.addrF h (by omega)

theorem EncodingFits.inp (a : Addr) (f : Nat) : EncodingFits.Statement (.inp a f) :=
  fun _ hb h => EncodingFits.addrF h (by omega)

theorem EncodingFits.out (a : Addr) (f : Nat) : EncodingFits.Statement (.out a f) :=
  fun _ hb h => EncodingFits.addrF h (by omega)

theorem EncodingFits.jred (a : Addr) (f : Nat) : EncodingFits.Statement (.jred a f) :=
  fun _ hb h => EncodingFits.addrF h (by omega)

theorem EncodingFits.jmp (a : Addr) : EncodingFits.Statement (.jmp a) :=
  fun _ hb h => EncodingFits.addr h (by omega) (by omega)

theorem EncodingFits.jsj (a : Addr) : EncodingFits.Statement (.jsj a) :=
  fun _ hb h => EncodingFits.addr h (by omega) (by omega)

theorem EncodingFits.jov (a : Addr) : EncodingFits.Statement (.jov a) :=
  fun _ hb h => EncodingFits.addr h (by omega) (by omega)

theorem EncodingFits.jnov (a : Addr) : EncodingFits.Statement (.jnov a) :=
  fun _ hb h => EncodingFits.addr h (by omega) (by omega)

theorem EncodingFits.jl (a : Addr) : EncodingFits.Statement (.jl a) :=
  fun _ hb h => EncodingFits.addr h (by omega) (by omega)

theorem EncodingFits.je (a : Addr) : EncodingFits.Statement (.je a) :=
  fun _ hb h => EncodingFits.addr h (by omega) (by omega)

theorem EncodingFits.jg (a : Addr) : EncodingFits.Statement (.jg a) :=
  fun _ hb h => EncodingFits.addr h (by omega) (by omega)

theorem EncodingFits.jge (a : Addr) : EncodingFits.Statement (.jge a) :=
  fun _ hb h => EncodingFits.addr h (by omega) (by omega)

theorem EncodingFits.jne (a : Addr) : EncodingFits.Statement (.jne a) :=
  fun _ hb h => EncodingFits.addr h (by omega) (by omega)

theorem EncodingFits.jle (a : Addr) : EncodingFits.Statement (.jle a) :=
  fun _ hb h => EncodingFits.addr h (by omega) (by omega)

theorem EncodingFits.jan (a : Addr) : EncodingFits.Statement (.jan a) :=
  fun _ hb h => EncodingFits.addr h (by omega) (by omega)

theorem EncodingFits.jaz (a : Addr) : EncodingFits.Statement (.jaz a) :=
  fun _ hb h => EncodingFits.addr h (by omega) (by omega)

theorem EncodingFits.jap (a : Addr) : EncodingFits.Statement (.jap a) :=
  fun _ hb h => EncodingFits.addr h (by omega) (by omega)

theorem EncodingFits.jann (a : Addr) : EncodingFits.Statement (.jann a) :=
  fun _ hb h => EncodingFits.addr h (by omega) (by omega)

theorem EncodingFits.janz (a : Addr) : EncodingFits.Statement (.janz a) :=
  fun _ hb h => EncodingFits.addr h (by omega) (by omega)

theorem EncodingFits.janp (a : Addr) : EncodingFits.Statement (.janp a) :=
  fun _ hb h => EncodingFits.addr h (by omega) (by omega)

theorem EncodingFits.j1n (a : Addr) : EncodingFits.Statement (.j1n a) :=
  fun _ hb h => EncodingFits.addr h (by omega) (by omega)

theorem EncodingFits.j1z (a : Addr) : EncodingFits.Statement (.j1z a) :=
  fun _ hb h => EncodingFits.addr h (by omega) (by omega)

theorem EncodingFits.j1p (a : Addr) : EncodingFits.Statement (.j1p a) :=
  fun _ hb h => EncodingFits.addr h (by omega) (by omega)

theorem EncodingFits.j1nn (a : Addr) : EncodingFits.Statement (.j1nn a) :=
  fun _ hb h => EncodingFits.addr h (by omega) (by omega)

theorem EncodingFits.j1nz (a : Addr) : EncodingFits.Statement (.j1nz a) :=
  fun _ hb h => EncodingFits.addr h (by omega) (by omega)

theorem EncodingFits.j1np (a : Addr) : EncodingFits.Statement (.j1np a) :=
  fun _ hb h => EncodingFits.addr h (by omega) (by omega)

theorem EncodingFits.j2n (a : Addr) : EncodingFits.Statement (.j2n a) :=
  fun _ hb h => EncodingFits.addr h (by omega) (by omega)

theorem EncodingFits.j2z (a : Addr) : EncodingFits.Statement (.j2z a) :=
  fun _ hb h => EncodingFits.addr h (by omega) (by omega)

theorem EncodingFits.j2p (a : Addr) : EncodingFits.Statement (.j2p a) :=
  fun _ hb h => EncodingFits.addr h (by omega) (by omega)

theorem EncodingFits.j2nn (a : Addr) : EncodingFits.Statement (.j2nn a) :=
  fun _ hb h => EncodingFits.addr h (by omega) (by omega)

theorem EncodingFits.j2nz (a : Addr) : EncodingFits.Statement (.j2nz a) :=
  fun _ hb h => EncodingFits.addr h (by omega) (by omega)

theorem EncodingFits.j2np (a : Addr) : EncodingFits.Statement (.j2np a) :=
  fun _ hb h => EncodingFits.addr h (by omega) (by omega)

theorem EncodingFits.j3n (a : Addr) : EncodingFits.Statement (.j3n a) :=
  fun _ hb h => EncodingFits.addr h (by omega) (by omega)

theorem EncodingFits.j3z (a : Addr) : EncodingFits.Statement (.j3z a) :=
  fun _ hb h => EncodingFits.addr h (by omega) (by omega)

theorem EncodingFits.j3p (a : Addr) : EncodingFits.Statement (.j3p a) :=
  fun _ hb h => EncodingFits.addr h (by omega) (by omega)

theorem EncodingFits.j3nn (a : Addr) : EncodingFits.Statement (.j3nn a) :=
  fun _ hb h => EncodingFits.addr h (by omega) (by omega)

theorem EncodingFits.j3nz (a : Addr) : EncodingFits.Statement (.j3nz a) :=
  fun _ hb h => EncodingFits.addr h (by omega) (by omega)

theorem EncodingFits.j3np (a : Addr) : EncodingFits.Statement (.j3np a) :=
  fun _ hb h => EncodingFits.addr h (by omega) (by omega)

theorem EncodingFits.j4n (a : Addr) : EncodingFits.Statement (.j4n a) :=
  fun _ hb h => EncodingFits.addr h (by omega) (by omega)

theorem EncodingFits.j4z (a : Addr) : EncodingFits.Statement (.j4z a) :=
  fun _ hb h => EncodingFits.addr h (by omega) (by omega)

theorem EncodingFits.j4p (a : Addr) : EncodingFits.Statement (.j4p a) :=
  fun _ hb h => EncodingFits.addr h (by omega) (by omega)

theorem EncodingFits.j4nn (a : Addr) : EncodingFits.Statement (.j4nn a) :=
  fun _ hb h => EncodingFits.addr h (by omega) (by omega)

theorem EncodingFits.j4nz (a : Addr) : EncodingFits.Statement (.j4nz a) :=
  fun _ hb h => EncodingFits.addr h (by omega) (by omega)

theorem EncodingFits.j4np (a : Addr) : EncodingFits.Statement (.j4np a) :=
  fun _ hb h => EncodingFits.addr h (by omega) (by omega)

theorem EncodingFits.j5n (a : Addr) : EncodingFits.Statement (.j5n a) :=
  fun _ hb h => EncodingFits.addr h (by omega) (by omega)

theorem EncodingFits.j5z (a : Addr) : EncodingFits.Statement (.j5z a) :=
  fun _ hb h => EncodingFits.addr h (by omega) (by omega)

theorem EncodingFits.j5p (a : Addr) : EncodingFits.Statement (.j5p a) :=
  fun _ hb h => EncodingFits.addr h (by omega) (by omega)

theorem EncodingFits.j5nn (a : Addr) : EncodingFits.Statement (.j5nn a) :=
  fun _ hb h => EncodingFits.addr h (by omega) (by omega)

theorem EncodingFits.j5nz (a : Addr) : EncodingFits.Statement (.j5nz a) :=
  fun _ hb h => EncodingFits.addr h (by omega) (by omega)

theorem EncodingFits.j5np (a : Addr) : EncodingFits.Statement (.j5np a) :=
  fun _ hb h => EncodingFits.addr h (by omega) (by omega)

theorem EncodingFits.j6n (a : Addr) : EncodingFits.Statement (.j6n a) :=
  fun _ hb h => EncodingFits.addr h (by omega) (by omega)

theorem EncodingFits.j6z (a : Addr) : EncodingFits.Statement (.j6z a) :=
  fun _ hb h => EncodingFits.addr h (by omega) (by omega)

theorem EncodingFits.j6p (a : Addr) : EncodingFits.Statement (.j6p a) :=
  fun _ hb h => EncodingFits.addr h (by omega) (by omega)

theorem EncodingFits.j6nn (a : Addr) : EncodingFits.Statement (.j6nn a) :=
  fun _ hb h => EncodingFits.addr h (by omega) (by omega)

theorem EncodingFits.j6nz (a : Addr) : EncodingFits.Statement (.j6nz a) :=
  fun _ hb h => EncodingFits.addr h (by omega) (by omega)

theorem EncodingFits.j6np (a : Addr) : EncodingFits.Statement (.j6np a) :=
  fun _ hb h => EncodingFits.addr h (by omega) (by omega)

theorem EncodingFits.jxn (a : Addr) : EncodingFits.Statement (.jxn a) :=
  fun _ hb h => EncodingFits.addr h (by omega) (by omega)

theorem EncodingFits.jxz (a : Addr) : EncodingFits.Statement (.jxz a) :=
  fun _ hb h => EncodingFits.addr h (by omega) (by omega)

theorem EncodingFits.jxp (a : Addr) : EncodingFits.Statement (.jxp a) :=
  fun _ hb h => EncodingFits.addr h (by omega) (by omega)

theorem EncodingFits.jxnn (a : Addr) : EncodingFits.Statement (.jxnn a) :=
  fun _ hb h => EncodingFits.addr h (by omega) (by omega)

theorem EncodingFits.jxnz (a : Addr) : EncodingFits.Statement (.jxnz a) :=
  fun _ hb h => EncodingFits.addr h (by omega) (by omega)

theorem EncodingFits.jxnp (a : Addr) : EncodingFits.Statement (.jxnp a) :=
  fun _ hb h => EncodingFits.addr h (by omega) (by omega)

theorem EncodingFits.inca (a : Addr) : EncodingFits.Statement (.inca a) :=
  fun _ hb h => EncodingFits.addr h (by omega) (by omega)

theorem EncodingFits.deca (a : Addr) : EncodingFits.Statement (.deca a) :=
  fun _ hb h => EncodingFits.addr h (by omega) (by omega)

theorem EncodingFits.enta (a : Addr) : EncodingFits.Statement (.enta a) :=
  fun _ hb h => EncodingFits.addr h (by omega) (by omega)

theorem EncodingFits.enna (a : Addr) : EncodingFits.Statement (.enna a) :=
  fun _ hb h => EncodingFits.addr h (by omega) (by omega)

theorem EncodingFits.inc1 (a : Addr) : EncodingFits.Statement (.inc1 a) :=
  fun _ hb h => EncodingFits.addr h (by omega) (by omega)

theorem EncodingFits.dec1 (a : Addr) : EncodingFits.Statement (.dec1 a) :=
  fun _ hb h => EncodingFits.addr h (by omega) (by omega)

theorem EncodingFits.ent1 (a : Addr) : EncodingFits.Statement (.ent1 a) :=
  fun _ hb h => EncodingFits.addr h (by omega) (by omega)

theorem EncodingFits.enn1 (a : Addr) : EncodingFits.Statement (.enn1 a) :=
  fun _ hb h => EncodingFits.addr h (by omega) (by omega)

theorem EncodingFits.inc2 (a : Addr) : EncodingFits.Statement (.inc2 a) :=
  fun _ hb h => EncodingFits.addr h (by omega) (by omega)

theorem EncodingFits.dec2 (a : Addr) : EncodingFits.Statement (.dec2 a) :=
  fun _ hb h => EncodingFits.addr h (by omega) (by omega)

theorem EncodingFits.ent2 (a : Addr) : EncodingFits.Statement (.ent2 a) :=
  fun _ hb h => EncodingFits.addr h (by omega) (by omega)

theorem EncodingFits.enn2 (a : Addr) : EncodingFits.Statement (.enn2 a) :=
  fun _ hb h => EncodingFits.addr h (by omega) (by omega)

theorem EncodingFits.inc3 (a : Addr) : EncodingFits.Statement (.inc3 a) :=
  fun _ hb h => EncodingFits.addr h (by omega) (by omega)

theorem EncodingFits.dec3 (a : Addr) : EncodingFits.Statement (.dec3 a) :=
  fun _ hb h => EncodingFits.addr h (by omega) (by omega)

theorem EncodingFits.ent3 (a : Addr) : EncodingFits.Statement (.ent3 a) :=
  fun _ hb h => EncodingFits.addr h (by omega) (by omega)

theorem EncodingFits.enn3 (a : Addr) : EncodingFits.Statement (.enn3 a) :=
  fun _ hb h => EncodingFits.addr h (by omega) (by omega)

theorem EncodingFits.inc4 (a : Addr) : EncodingFits.Statement (.inc4 a) :=
  fun _ hb h => EncodingFits.addr h (by omega) (by omega)

theorem EncodingFits.dec4 (a : Addr) : EncodingFits.Statement (.dec4 a) :=
  fun _ hb h => EncodingFits.addr h (by omega) (by omega)

theorem EncodingFits.ent4 (a : Addr) : EncodingFits.Statement (.ent4 a) :=
  fun _ hb h => EncodingFits.addr h (by omega) (by omega)

theorem EncodingFits.enn4 (a : Addr) : EncodingFits.Statement (.enn4 a) :=
  fun _ hb h => EncodingFits.addr h (by omega) (by omega)

theorem EncodingFits.inc5 (a : Addr) : EncodingFits.Statement (.inc5 a) :=
  fun _ hb h => EncodingFits.addr h (by omega) (by omega)

theorem EncodingFits.dec5 (a : Addr) : EncodingFits.Statement (.dec5 a) :=
  fun _ hb h => EncodingFits.addr h (by omega) (by omega)

theorem EncodingFits.ent5 (a : Addr) : EncodingFits.Statement (.ent5 a) :=
  fun _ hb h => EncodingFits.addr h (by omega) (by omega)

theorem EncodingFits.enn5 (a : Addr) : EncodingFits.Statement (.enn5 a) :=
  fun _ hb h => EncodingFits.addr h (by omega) (by omega)

theorem EncodingFits.inc6 (a : Addr) : EncodingFits.Statement (.inc6 a) :=
  fun _ hb h => EncodingFits.addr h (by omega) (by omega)

theorem EncodingFits.dec6 (a : Addr) : EncodingFits.Statement (.dec6 a) :=
  fun _ hb h => EncodingFits.addr h (by omega) (by omega)

theorem EncodingFits.ent6 (a : Addr) : EncodingFits.Statement (.ent6 a) :=
  fun _ hb h => EncodingFits.addr h (by omega) (by omega)

theorem EncodingFits.enn6 (a : Addr) : EncodingFits.Statement (.enn6 a) :=
  fun _ hb h => EncodingFits.addr h (by omega) (by omega)

theorem EncodingFits.incx (a : Addr) : EncodingFits.Statement (.incx a) :=
  fun _ hb h => EncodingFits.addr h (by omega) (by omega)

theorem EncodingFits.decx (a : Addr) : EncodingFits.Statement (.decx a) :=
  fun _ hb h => EncodingFits.addr h (by omega) (by omega)

theorem EncodingFits.entx (a : Addr) : EncodingFits.Statement (.entx a) :=
  fun _ hb h => EncodingFits.addr h (by omega) (by omega)

theorem EncodingFits.ennx (a : Addr) : EncodingFits.Statement (.ennx a) :=
  fun _ hb h => EncodingFits.addr h (by omega) (by omega)

theorem EncodingFits.cmpa (a : Addr) (f : Nat) : EncodingFits.Statement (.cmpa a f) :=
  fun _ hb h => EncodingFits.addrF h (by omega)

theorem EncodingFits.cmp1 (a : Addr) (f : Nat) : EncodingFits.Statement (.cmp1 a f) :=
  fun _ hb h => EncodingFits.addrF h (by omega)

theorem EncodingFits.cmp2 (a : Addr) (f : Nat) : EncodingFits.Statement (.cmp2 a f) :=
  fun _ hb h => EncodingFits.addrF h (by omega)

theorem EncodingFits.cmp3 (a : Addr) (f : Nat) : EncodingFits.Statement (.cmp3 a f) :=
  fun _ hb h => EncodingFits.addrF h (by omega)

theorem EncodingFits.cmp4 (a : Addr) (f : Nat) : EncodingFits.Statement (.cmp4 a f) :=
  fun _ hb h => EncodingFits.addrF h (by omega)

theorem EncodingFits.cmp5 (a : Addr) (f : Nat) : EncodingFits.Statement (.cmp5 a f) :=
  fun _ hb h => EncodingFits.addrF h (by omega)

theorem EncodingFits.cmp6 (a : Addr) (f : Nat) : EncodingFits.Statement (.cmp6 a f) :=
  fun _ hb h => EncodingFits.addrF h (by omega)

theorem EncodingFits.cmpx (a : Addr) (f : Nat) : EncodingFits.Statement (.cmpx a f) :=
  fun _ hb h => EncodingFits.addrF h (by omega)

end Sys2Proof.Laws
end

