-- ==== Sys2Proof/Laws/Run.lean ====
section
/-! SUPPORT. Runs of several steps, one step at a time. -/

namespace Sys2Proof.Machine

theorem coreRun_succ (M : Host.Core) (k : Nat) (s t : M.State) :
    M.run (k + 1) s = .next t ↔ ∃ u, M.step s = .next u ∧ M.run k u = .next t := by
  rw [Host.Core.run.eq_2]
  cases M.step s <;> simp

/-- No step leads nowhere else. -/
theorem runsTo_zero {s t : State} : runsTo 0 s t ↔ s = t :=
  ⟨fun h => by cases h; rfl, fun h => by cases h; rfl⟩

/-- A run is a step and a run. -/
theorem runsTo_succ {k : Nat} {s t : State} : runsTo (k + 1) s t ↔ ∃ u, step s = .next u ∧ runsTo k u t :=
  coreRun_succ Sys2Proof.core k s t

end Sys2Proof.Machine
end

