-- ==== Sys2Proof/Laws/Values.lean ====
section
/-! SUPPORT. Which operations keep bytes bytes and words words, the allowable fields, the list of the bytes of a word, and the memory as
what it reads. -/

namespace Sys2Proof.Machine

variable {b : Nat}

theorem wordOk_mag_lt {w : Word} (h : wordOk b w) : wordMag b w < b ^ 5 :=
  wordMag_lt h.1 h.2.1 h.2.2.1 h.2.2.2.1 h.2.2.2.2

theorem wordOk_val_lt {w : Word} (h : wordOk b w) : (wordVal b w).natAbs < b ^ 5 := by
  rw [wordVal_natAbs]
  exact wordOk_mag_lt h

theorem wordOk_plusZero (hb : 0 < b) : wordOk b Word.plusZero := ⟨hb, hb, hb, hb, hb⟩

theorem wordOk_ofMag (hb : 0 < b) (s : Sign) (m : Nat) : wordOk b (wordOfMag b s m) := wordOfMag_bytes hb s m

theorem shortOk_ofMag (hb : 0 < b) (s : Sign) (m : Nat) : shortOk b (shortOfMag b s m) := ⟨Nat.mod_lt _ hb, Nat.mod_lt _ hb⟩

theorem wordOk_shortAsWord (hb : 0 < b) {h : Short} (hh : shortOk b h) : wordOk b (shortAsWord h) := ⟨hb, hb, hb, hh.1, hh.2⟩

theorem wordOk_negateIf {w : Word} (neg : Bool) (h : wordOk b w) : wordOk b (negateIf neg w) := by
  cases neg <;> exact h

theorem wordOk_freeWord (s : State) (k : Nat) (hb : 0 < s.b) : wordOk s.b (s.freeWord k) :=
  ⟨Nat.mod_lt _ hb, Nat.mod_lt _ hb, Nat.mod_lt _ hb, Nat.mod_lt _ hb, Nat.mod_lt _ hb⟩

/-- A word is the word of its sign and magnitude. -/
theorem wordOfMag_mag {w : Word} (h : wordOk b w) : wordOfMag b w.sign (wordMag b w) = w := by
  obtain ⟨s, b1, b2, b3, b4, b5⟩ := w
  obtain ⟨h1, h2, h3, h4, h5⟩ := h
  simp only [wordMag, wordOfMag] at *
  have hb : 0 < b := by omega
  have d : ∀ x y, y < b → (x * b + y) / b = x := fun x y hy => by
    rw [Nat.mul_comm, Nat.mul_add_div hb, Nat.div_eq_of_lt hy, Nat.add_zero]
  have r : ∀ x y, y < b → (x * b + y) % b = y := fun x y hy => by rw [Nat.mul_add_mod', Nat.mod_eq_of_lt hy]
  have e1 : b1 * b ^ 4 + b2 * b ^ 3 + b3 * b ^ 2 + b4 * b + b5 = (((b1 * b + b2) * b + b3) * b + b4) * b + b5 := by ring
  have q2 : ∀ x, x / b ^ 2 = x / b / b := fun x => by rw [Nat.div_div_eq_div_mul, ← pow_two]
  have q3 : ∀ x, x / b ^ 3 = x / b / b / b := fun x => by rw [pow_succ, ← Nat.div_div_eq_div_mul, q2]
  have q4 : ∀ x, x / b ^ 4 = x / b / b / b / b := fun x => by rw [pow_succ, ← Nat.div_div_eq_div_mul, q3]
  rw [e1, q4, q3, q2, d _ _ h5, d _ _ h4, d _ _ h3, d _ _ h2, r _ _ h5, r _ _ h4, r _ _ h3, r _ _ h2, Nat.mod_eq_of_lt h1]

/-- The bytes of a word are bytes. -/
theorem wordBytes_lt {w : Word} (h : wordOk b w) : ∀ x ∈ wordBytes w, x < b := by
  simp only [wordBytes, List.mem_cons, List.not_mem_nil, or_false]
  rintro x (rfl | rfl | rfl | rfl | rfl)
  · exact h.1
  · exact h.2.1
  · exact h.2.2.1
  · exact h.2.2.2.1
  · exact h.2.2.2.2

/-- A word made of bytes, zeros filling the end of a short list. -/
theorem wordOk_ofBytes (hb : 0 < b) (s : Sign) {l : List Nat} (h : ∀ x ∈ l, x < b) : wordOk b (wordOfBytes s l) := by
  have key : ∀ k, l.getD k 0 < b := by
    intro k
    rw [List.getD_eq_getElem?_getD]
    cases hk : l[k]? with
    | none => exact hb
    | some x => exact h x (List.mem_of_getElem? hk)
  exact ⟨key 0, key 1, key 2, key 3, key 4⟩

/-- Every field operation on words gives a word. -/
theorem wordOk_loadField (hb : 0 < b) {w : Word} (f : Nat) (h : wordOk b w) : wordOk b (loadField w f) := by
  refine wordOk_ofBytes hb _ fun x hx => ?_
  rcases List.mem_append.1 hx with hx | hx
  · rw [(List.mem_replicate.1 hx).2]
    exact hb
  · exact wordBytes_lt h x (List.mem_of_mem_take (List.mem_of_mem_drop hx))

theorem wordOk_storeField (hb : 0 < b) {old r : Word} (f : Nat) (ho : wordOk b old) (hr : wordOk b r) :
    wordOk b (storeField old r f) := by
  refine wordOk_ofBytes hb _ fun x hx => ?_
  rcases List.mem_append.1 hx with hx | hx
  · rcases List.mem_append.1 hx with hx | hx
    · exact wordBytes_lt ho x (List.mem_of_mem_take hx)
    · exact wordBytes_lt hr x (List.mem_of_mem_drop hx)
  · exact wordBytes_lt ho x (List.mem_of_mem_drop hx)

/-- The twenty-one allowable field specifications (20_memory.md R57). -/
theorem fieldOk_values {f : Nat} (hf : fieldOk f = true) :
    f ∈ [0, 1, 2, 3, 4, 5, 9, 10, 11, 12, 13, 18, 19, 20, 21, 27, 28, 29, 36, 37, 45] := by
  simp only [fieldOk, Bool.and_eq_true, decide_eq_true_eq] at hf
  have : f ≤ 45 := by omega
  interval_cases f <;> simp at hf ⊢

/-- Two memories in canonical form that read the same are equal. -/
theorem Memory.ext_read {m n : Memory} (hm : Memory.wf m) (hn : Memory.wf n) (h : ∀ k, m.read k = n.read k) : m = n := by
  have look : ∀ {l : Memory}, Memory.wf l → ∀ k, sparseLookup l k = if l.read k = Word.plusZero then none else some (l.read k) := by
    intro l hl k
    unfold Memory.read sparseGet
    cases hk : sparseLookup l k with
    | none => rfl
    | some w =>
      have : w ≠ Word.plusZero := (hl.2 _ (sparseLookup_mem hk)).2
      simp [this]
  exact sparse_ext hm.1 hn.1 fun k => by rw [look hm, look hn, h]

theorem memoryOk_read {m : Memory} (hb : 0 < b) (h : memoryOk b m) (n : Nat) : wordOk b (m.read n) := by
  rcases Memory.read_cases m n with h1 | h1
  · exact h.2 _ h1
  · rw [h1]
    exact wordOk_plusZero hb

theorem memoryOk_write {m : Memory} (h : memoryOk b m) {n : Nat} (hn : n < 4000) {w : Word} (hw : wordOk b w) :
    memoryOk b (m.write n w) := by
  refine ⟨Memory.wf_write h.1 hn w, fun e he => ?_⟩
  rcases mem_sparseSet he with ⟨rfl, _⟩ | ⟨he, _⟩
  · exact hw
  · exact h.2 e he

theorem memoryOk_writeBlock {m : Memory} (h : memoryOk b m) {n : Nat} {l : List Word} (hn : n + l.length ≤ 4000)
    (hl : ∀ w ∈ l, wordOk b w) : memoryOk b (m.writeBlock n l) := by
  induction l generalizing m n with
  | nil => exact h
  | cons w l ih =>
    simp only [List.length_cons] at hn
    exact ih (memoryOk_write h (by omega) (hl w (by simp))) (by omega) fun v hv => hl v (List.mem_cons_of_mem _ hv)

theorem memoryOk_moveWords (hb : 0 < b) {m : Memory} (h : memoryOk b m) {src dst n : Nat} (hn : dst + n ≤ 4000) :
    memoryOk b (m.moveWords src dst n) := by
  induction n generalizing m src dst with
  | zero => exact h
  | succ n ih => exact ih (memoryOk_write h (by omega) (memoryOk_read hb h src)) (by omega)

theorem wordsOk_readBlock (hb : 0 < b) {m : Memory} (h : memoryOk b m) (lo n : Nat) : wordsOk b n (m.readBlock lo n) := by
  refine ⟨Memory.length_readBlock m lo n, fun w hw => ?_⟩
  simp only [Memory.readBlock, List.mem_map] at hw
  obtain ⟨k, _, rfl⟩ := hw
  exact memoryOk_read hb h _

end Sys2Proof.Machine
end

