-- ==== Sys2Proof/Machine/Timing.lean ====
section
/-! DEFINITION. The execution times of spec/70_reset_and_hazards.md R440 in units u, as an annotation: no step reads them (R442, log
22). The time that the machine waits or stands halted is not in it. -/

namespace Sys2Proof.Machine

/-- The time of an instruction in units; none for the floating-point rows, "unspecified" (R440). -/
def instrTime : Instr → Option Nat
  | .nop _ _ | .num _ | .char _ | .hlt _ | .jbus _ _ | .ioc _ _ | .inp _ _ | .out _ _
  | .jred _ _ | .jmp _ | .jsj _ | .jov _ | .jnov _ | .jl _ | .je _ | .jg _
  | .jge _ | .jne _ | .jle _ | .jan _ | .jaz _ | .jap _ | .jann _ | .janz _
  | .janp _ | .j1n _ | .j1z _ | .j1p _ | .j1nn _ | .j1nz _ | .j1np _ | .j2n _
  | .j2z _ | .j2p _ | .j2nn _ | .j2nz _ | .j2np _ | .j3n _ | .j3z _ | .j3p _
  | .j3nn _ | .j3nz _ | .j3np _ | .j4n _ | .j4z _ | .j4p _ | .j4nn _ | .j4nz _
  | .j4np _ | .j5n _ | .j5z _ | .j5p _ | .j5nn _ | .j5nz _ | .j5np _ | .j6n _
  | .j6z _ | .j6p _ | .j6nn _ | .j6nz _ | .j6np _ | .jxn _ | .jxz _ | .jxp _
  | .jxnn _ | .jxnz _ | .jxnp _ | .inca _ | .deca _ | .enta _ | .enna _ | .inc1 _
  | .dec1 _ | .ent1 _ | .enn1 _ | .inc2 _ | .dec2 _ | .ent2 _ | .enn2 _ | .inc3 _
  | .dec3 _ | .ent3 _ | .enn3 _ | .inc4 _ | .dec4 _ | .ent4 _ | .enn4 _ | .inc5 _
  | .dec5 _ | .ent5 _ | .enn5 _ | .inc6 _ | .dec6 _ | .ent6 _ | .enn6 _ | .incx _
  | .decx _ | .entx _ | .ennx _ => some 1
  | .add _ _ | .sub _ _ | .sla _ | .sra _ | .slax _ | .srax _ | .slc _ | .src _
  | .lda _ _ | .ld1 _ _ | .ld2 _ _ | .ld3 _ _ | .ld4 _ _ | .ld5 _ _ | .ld6 _ _ | .ldx _ _
  | .ldan _ _ | .ld1n _ _ | .ld2n _ _ | .ld3n _ _ | .ld4n _ _ | .ld5n _ _ | .ld6n _ _ | .ldxn _ _
  | .sta _ _ | .st1 _ _ | .st2 _ _ | .st3 _ _ | .st4 _ _ | .st5 _ _ | .st6 _ _ | .stx _ _
  | .stj _ _ | .stz _ _ | .cmpa _ _ | .cmp1 _ _ | .cmp2 _ _ | .cmp3 _ _ | .cmp4 _ _ | .cmp5 _ _
  | .cmp6 _ _ | .cmpx _ _ => some 2
  | .mul _ _ => some 10
  | .div _ _ => some 12
  | .fadd _ | .fsub _ | .fmul _ | .fdiv _ => none
  | .move _ f => some (1 + 2 * f)

end Sys2Proof.Machine
end

