-- ==== Sys2Proof/Tests/Slice0.lean ====
section
/-! SUPPORT. The model's own tests. A name test_<id>_... is row <id> of spec/95_test_vectors.md or spec/96_test_vectors_io.md at byte
size 64, with that row's expected result; test_more_... are hand calculations from the rule of the group for the registers that have no
row; the payloads of the faults are worked out from spec/60_exceptions.md R402. The words of test_decode_... are written from the C and F
columns of spec/30_encoding.md R90. witness_<Name>_... shows states and operands that meet the hypotheses of Obligations.<Name>. -/

namespace Sys2Proof.Tests

set_option Elab.async false

open Sys2Proof.Machine

/-! ### Well-formedness: one ill-formed term for each check -/

theorem test_wellFormed_accepts : (Instr.lda ⟨.minus, 63, 63, 63⟩ 63).wellFormed 64 = true := by decide

theorem test_illFormed_address_byte_1 : (Instr.lda ⟨.plus, 64, 0, 0⟩ 5).wellFormed 64 = false := by decide

theorem test_illFormed_address_byte_2 : (Instr.jmp ⟨.plus, 0, 64, 0⟩).wellFormed 64 = false := by decide

theorem test_illFormed_index_byte : (Instr.num ⟨.plus, 0, 0, 64⟩).wellFormed 64 = false := by decide

theorem test_illFormed_field_byte : (Instr.inp ⟨.plus, 0, 0, 0⟩ 64).wellFormed 64 = false := by decide

theorem test_illFormed_arithmetic_field_byte : (Instr.mul ⟨.plus, 0, 0, 0⟩ 64).wellFormed 64 = false := by decide

theorem test_illFormed_floating_field :
    (Instr.add ⟨.plus, 0, 0, 0⟩ 6).wellFormed 64 = false ∧ (Instr.sub ⟨.plus, 0, 0, 0⟩ 6).wellFormed 64 = false ∧
      (Instr.mul ⟨.plus, 0, 0, 0⟩ 6).wellFormed 64 = false ∧ (Instr.div ⟨.plus, 0, 0, 0⟩ 6).wellFormed 64 = false := by decide

/-! ### Decoding: every row of the table -/

theorem test_decode_arith :
    decode ⟨.minus, 1, 2, 3, 13, 0⟩ = .ok (.nop ⟨.minus, 1, 2, 3⟩ 13) ∧
    decode ⟨.minus, 1, 2, 3, 13, 1⟩ = .ok (.add ⟨.minus, 1, 2, 3⟩ 13) ∧
    decode ⟨.minus, 1, 2, 3, 13, 2⟩ = .ok (.sub ⟨.minus, 1, 2, 3⟩ 13) ∧
    decode ⟨.minus, 1, 2, 3, 13, 3⟩ = .ok (.mul ⟨.minus, 1, 2, 3⟩ 13) ∧
    decode ⟨.minus, 1, 2, 3, 13, 4⟩ = .ok (.div ⟨.minus, 1, 2, 3⟩ 13) ∧
    decode ⟨.minus, 1, 2, 3, 6, 1⟩ = .ok (.fadd ⟨.minus, 1, 2, 3⟩) ∧
    decode ⟨.minus, 1, 2, 3, 6, 2⟩ = .ok (.fsub ⟨.minus, 1, 2, 3⟩) ∧
    decode ⟨.minus, 1, 2, 3, 6, 3⟩ = .ok (.fmul ⟨.minus, 1, 2, 3⟩) ∧
    decode ⟨.minus, 1, 2, 3, 6, 4⟩ = .ok (.fdiv ⟨.minus, 1, 2, 3⟩) := by
  refine ⟨?_, ?_, ?_, ?_, ?_, ?_, ?_, ?_, ?_⟩ <;> rfl

theorem test_decode_misc :
    decode ⟨.minus, 1, 2, 3, 0, 5⟩ = .ok (.num ⟨.minus, 1, 2, 3⟩) ∧
    decode ⟨.minus, 1, 2, 3, 1, 5⟩ = .ok (.char ⟨.minus, 1, 2, 3⟩) ∧
    decode ⟨.minus, 1, 2, 3, 2, 5⟩ = .ok (.hlt ⟨.minus, 1, 2, 3⟩) ∧
    decode ⟨.minus, 1, 2, 3, 0, 6⟩ = .ok (.sla ⟨.minus, 1, 2, 3⟩) ∧
    decode ⟨.minus, 1, 2, 3, 1, 6⟩ = .ok (.sra ⟨.minus, 1, 2, 3⟩) ∧
    decode ⟨.minus, 1, 2, 3, 2, 6⟩ = .ok (.slax ⟨.minus, 1, 2, 3⟩) ∧
    decode ⟨.minus, 1, 2, 3, 3, 6⟩ = .ok (.srax ⟨.minus, 1, 2, 3⟩) ∧
    decode ⟨.minus, 1, 2, 3, 4, 6⟩ = .ok (.slc ⟨.minus, 1, 2, 3⟩) ∧
    decode ⟨.minus, 1, 2, 3, 5, 6⟩ = .ok (.src ⟨.minus, 1, 2, 3⟩) ∧
    decode ⟨.minus, 1, 2, 3, 13, 7⟩ = .ok (.move ⟨.minus, 1, 2, 3⟩ 13) := by
  refine ⟨?_, ?_, ?_, ?_, ?_, ?_, ?_, ?_, ?_, ?_⟩ <;> rfl

theorem test_decode_load :
    decode ⟨.minus, 1, 2, 3, 13, 8⟩ = .ok (.lda ⟨.minus, 1, 2, 3⟩ 13) ∧
    decode ⟨.minus, 1, 2, 3, 13, 9⟩ = .ok (.ld1 ⟨.minus, 1, 2, 3⟩ 13) ∧
    decode ⟨.minus, 1, 2, 3, 13, 10⟩ = .ok (.ld2 ⟨.minus, 1, 2, 3⟩ 13) ∧
    decode ⟨.minus, 1, 2, 3, 13, 11⟩ = .ok (.ld3 ⟨.minus, 1, 2, 3⟩ 13) ∧
    decode ⟨.minus, 1, 2, 3, 13, 12⟩ = .ok (.ld4 ⟨.minus, 1, 2, 3⟩ 13) ∧
    decode ⟨.minus, 1, 2, 3, 13, 13⟩ = .ok (.ld5 ⟨.minus, 1, 2, 3⟩ 13) ∧
    decode ⟨.minus, 1, 2, 3, 13, 14⟩ = .ok (.ld6 ⟨.minus, 1, 2, 3⟩ 13) ∧
    decode ⟨.minus, 1, 2, 3, 13, 15⟩ = .ok (.ldx ⟨.minus, 1, 2, 3⟩ 13) ∧
    decode ⟨.minus, 1, 2, 3, 13, 16⟩ = .ok (.ldan ⟨.minus, 1, 2, 3⟩ 13) ∧
    decode ⟨.minus, 1, 2, 3, 13, 17⟩ = .ok (.ld1n ⟨.minus, 1, 2, 3⟩ 13) ∧
    decode ⟨.minus, 1, 2, 3, 13, 18⟩ = .ok (.ld2n ⟨.minus, 1, 2, 3⟩ 13) ∧
    decode ⟨.minus, 1, 2, 3, 13, 19⟩ = .ok (.ld3n ⟨.minus, 1, 2, 3⟩ 13) ∧
    decode ⟨.minus, 1, 2, 3, 13, 20⟩ = .ok (.ld4n ⟨.minus, 1, 2, 3⟩ 13) ∧
    decode ⟨.minus, 1, 2, 3, 13, 21⟩ = .ok (.ld5n ⟨.minus, 1, 2, 3⟩ 13) ∧
    decode ⟨.minus, 1, 2, 3, 13, 22⟩ = .ok (.ld6n ⟨.minus, 1, 2, 3⟩ 13) ∧
    decode ⟨.minus, 1, 2, 3, 13, 23⟩ = .ok (.ldxn ⟨.minus, 1, 2, 3⟩ 13) := by
  refine ⟨?_, ?_, ?_, ?_, ?_, ?_, ?_, ?_, ?_, ?_, ?_, ?_, ?_, ?_, ?_, ?_⟩ <;> rfl

theorem test_decode_store :
    decode ⟨.minus, 1, 2, 3, 13, 24⟩ = .ok (.sta ⟨.minus, 1, 2, 3⟩ 13) ∧
    decode ⟨.minus, 1, 2, 3, 13, 25⟩ = .ok (.st1 ⟨.minus, 1, 2, 3⟩ 13) ∧
    decode ⟨.minus, 1, 2, 3, 13, 26⟩ = .ok (.st2 ⟨.minus, 1, 2, 3⟩ 13) ∧
    decode ⟨.minus, 1, 2, 3, 13, 27⟩ = .ok (.st3 ⟨.minus, 1, 2, 3⟩ 13) ∧
    decode ⟨.minus, 1, 2, 3, 13, 28⟩ = .ok (.st4 ⟨.minus, 1, 2, 3⟩ 13) ∧
    decode ⟨.minus, 1, 2, 3, 13, 29⟩ = .ok (.st5 ⟨.minus, 1, 2, 3⟩ 13) ∧
    decode ⟨.minus, 1, 2, 3, 13, 30⟩ = .ok (.st6 ⟨.minus, 1, 2, 3⟩ 13) ∧
    decode ⟨.minus, 1, 2, 3, 13, 31⟩ = .ok (.stx ⟨.minus, 1, 2, 3⟩ 13) ∧
    decode ⟨.minus, 1, 2, 3, 13, 32⟩ = .ok (.stj ⟨.minus, 1, 2, 3⟩ 13) ∧
    decode ⟨.minus, 1, 2, 3, 13, 33⟩ = .ok (.stz ⟨.minus, 1, 2, 3⟩ 13) := by
  refine ⟨?_, ?_, ?_, ?_, ?_, ?_, ?_, ?_, ?_, ?_⟩ <;> rfl

theorem test_decode_io :
    decode ⟨.minus, 1, 2, 3, 13, 34⟩ = .ok (.jbus ⟨.minus, 1, 2, 3⟩ 13) ∧
    decode ⟨.minus, 1, 2, 3, 13, 35⟩ = .ok (.ioc ⟨.minus, 1, 2, 3⟩ 13) ∧
    decode ⟨.minus, 1, 2, 3, 13, 36⟩ = .ok (.inp ⟨.minus, 1, 2, 3⟩ 13) ∧
    decode ⟨.minus, 1, 2, 3, 13, 37⟩ = .ok (.out ⟨.minus, 1, 2, 3⟩ 13) ∧
    decode ⟨.minus, 1, 2, 3, 13, 38⟩ = .ok (.jred ⟨.minus, 1, 2, 3⟩ 13) := by
  refine ⟨?_, ?_, ?_, ?_, ?_⟩ <;> rfl

theorem test_decode_jump :
    decode ⟨.minus, 1, 2, 3, 0, 39⟩ = .ok (.jmp ⟨.minus, 1, 2, 3⟩) ∧
    decode ⟨.minus, 1, 2, 3, 1, 39⟩ = .ok (.jsj ⟨.minus, 1, 2, 3⟩) ∧
    decode ⟨.minus, 1, 2, 3, 2, 39⟩ = .ok (.jov ⟨.minus, 1, 2, 3⟩) ∧
    decode ⟨.minus, 1, 2, 3, 3, 39⟩ = .ok (.jnov ⟨.minus, 1, 2, 3⟩) ∧
    decode ⟨.minus, 1, 2, 3, 4, 39⟩ = .ok (.jl ⟨.minus, 1, 2, 3⟩) ∧
    decode ⟨.minus, 1, 2, 3, 5, 39⟩ = .ok (.je ⟨.minus, 1, 2, 3⟩) ∧
    decode ⟨.minus, 1, 2, 3, 6, 39⟩ = .ok (.jg ⟨.minus, 1, 2, 3⟩) ∧
    decode ⟨.minus, 1, 2, 3, 7, 39⟩ = .ok (.jge ⟨.minus, 1, 2, 3⟩) ∧
    decode ⟨.minus, 1, 2, 3, 8, 39⟩ = .ok (.jne ⟨.minus, 1, 2, 3⟩) ∧
    decode ⟨.minus, 1, 2, 3, 9, 39⟩ = .ok (.jle ⟨.minus, 1, 2, 3⟩) := by
  refine ⟨?_, ?_, ?_, ?_, ?_, ?_, ?_, ?_, ?_, ?_⟩ <;> rfl

theorem test_decode_register_jump_a_1_2_3 :
    decode ⟨.minus, 1, 2, 3, 0, 40⟩ = .ok (.jan ⟨.minus, 1, 2, 3⟩) ∧
    decode ⟨.minus, 1, 2, 3, 1, 40⟩ = .ok (.jaz ⟨.minus, 1, 2, 3⟩) ∧
    decode ⟨.minus, 1, 2, 3, 2, 40⟩ = .ok (.jap ⟨.minus, 1, 2, 3⟩) ∧
    decode ⟨.minus, 1, 2, 3, 3, 40⟩ = .ok (.jann ⟨.minus, 1, 2, 3⟩) ∧
    decode ⟨.minus, 1, 2, 3, 4, 40⟩ = .ok (.janz ⟨.minus, 1, 2, 3⟩) ∧
    decode ⟨.minus, 1, 2, 3, 5, 40⟩ = .ok (.janp ⟨.minus, 1, 2, 3⟩) ∧
    decode ⟨.minus, 1, 2, 3, 0, 41⟩ = .ok (.j1n ⟨.minus, 1, 2, 3⟩) ∧
    decode ⟨.minus, 1, 2, 3, 1, 41⟩ = .ok (.j1z ⟨.minus, 1, 2, 3⟩) ∧
    decode ⟨.minus, 1, 2, 3, 2, 41⟩ = .ok (.j1p ⟨.minus, 1, 2, 3⟩) ∧
    decode ⟨.minus, 1, 2, 3, 3, 41⟩ = .ok (.j1nn ⟨.minus, 1, 2, 3⟩) ∧
    decode ⟨.minus, 1, 2, 3, 4, 41⟩ = .ok (.j1nz ⟨.minus, 1, 2, 3⟩) ∧
    decode ⟨.minus, 1, 2, 3, 5, 41⟩ = .ok (.j1np ⟨.minus, 1, 2, 3⟩) ∧
    decode ⟨.minus, 1, 2, 3, 0, 42⟩ = .ok (.j2n ⟨.minus, 1, 2, 3⟩) ∧
    decode ⟨.minus, 1, 2, 3, 1, 42⟩ = .ok (.j2z ⟨.minus, 1, 2, 3⟩) ∧
    decode ⟨.minus, 1, 2, 3, 2, 42⟩ = .ok (.j2p ⟨.minus, 1, 2, 3⟩) ∧
    decode ⟨.minus, 1, 2, 3, 3, 42⟩ = .ok (.j2nn ⟨.minus, 1, 2, 3⟩) ∧
    decode ⟨.minus, 1, 2, 3, 4, 42⟩ = .ok (.j2nz ⟨.minus, 1, 2, 3⟩) ∧
    decode ⟨.minus, 1, 2, 3, 5, 42⟩ = .ok (.j2np ⟨.minus, 1, 2, 3⟩) ∧
    decode ⟨.minus, 1, 2, 3, 0, 43⟩ = .ok (.j3n ⟨.minus, 1, 2, 3⟩) ∧
    decode ⟨.minus, 1, 2, 3, 1, 43⟩ = .ok (.j3z ⟨.minus, 1, 2, 3⟩) ∧
    decode ⟨.minus, 1, 2, 3, 2, 43⟩ = .ok (.j3p ⟨.minus, 1, 2, 3⟩) ∧
    decode ⟨.minus, 1, 2, 3, 3, 43⟩ = .ok (.j3nn ⟨.minus, 1, 2, 3⟩) ∧
    decode ⟨.minus, 1, 2, 3, 4, 43⟩ = .ok (.j3nz ⟨.minus, 1, 2, 3⟩) ∧
    decode ⟨.minus, 1, 2, 3, 5, 43⟩ = .ok (.j3np ⟨.minus, 1, 2, 3⟩) := by
  refine ⟨?_, ?_, ?_, ?_, ?_, ?_, ?_, ?_, ?_, ?_, ?_, ?_, ?_, ?_, ?_, ?_, ?_, ?_, ?_, ?_, ?_, ?_, ?_, ?_⟩ <;> rfl

theorem test_decode_register_jump_4_5_6_x :
    decode ⟨.minus, 1, 2, 3, 0, 44⟩ = .ok (.j4n ⟨.minus, 1, 2, 3⟩) ∧
    decode ⟨.minus, 1, 2, 3, 1, 44⟩ = .ok (.j4z ⟨.minus, 1, 2, 3⟩) ∧
    decode ⟨.minus, 1, 2, 3, 2, 44⟩ = .ok (.j4p ⟨.minus, 1, 2, 3⟩) ∧
    decode ⟨.minus, 1, 2, 3, 3, 44⟩ = .ok (.j4nn ⟨.minus, 1, 2, 3⟩) ∧
    decode ⟨.minus, 1, 2, 3, 4, 44⟩ = .ok (.j4nz ⟨.minus, 1, 2, 3⟩) ∧
    decode ⟨.minus, 1, 2, 3, 5, 44⟩ = .ok (.j4np ⟨.minus, 1, 2, 3⟩) ∧
    decode ⟨.minus, 1, 2, 3, 0, 45⟩ = .ok (.j5n ⟨.minus, 1, 2, 3⟩) ∧
    decode ⟨.minus, 1, 2, 3, 1, 45⟩ = .ok (.j5z ⟨.minus, 1, 2, 3⟩) ∧
    decode ⟨.minus, 1, 2, 3, 2, 45⟩ = .ok (.j5p ⟨.minus, 1, 2, 3⟩) ∧
    decode ⟨.minus, 1, 2, 3, 3, 45⟩ = .ok (.j5nn ⟨.minus, 1, 2, 3⟩) ∧
    decode ⟨.minus, 1, 2, 3, 4, 45⟩ = .ok (.j5nz ⟨.minus, 1, 2, 3⟩) ∧
    decode ⟨.minus, 1, 2, 3, 5, 45⟩ = .ok (.j5np ⟨.minus, 1, 2, 3⟩) ∧
    decode ⟨.minus, 1, 2, 3, 0, 46⟩ = .ok (.j6n ⟨.minus, 1, 2, 3⟩) ∧
    decode ⟨.minus, 1, 2, 3, 1, 46⟩ = .ok (.j6z ⟨.minus, 1, 2, 3⟩) ∧
    decode ⟨.minus, 1, 2, 3, 2, 46⟩ = .ok (.j6p ⟨.minus, 1, 2, 3⟩) ∧
    decode ⟨.minus, 1, 2, 3, 3, 46⟩ = .ok (.j6nn ⟨.minus, 1, 2, 3⟩) ∧
    decode ⟨.minus, 1, 2, 3, 4, 46⟩ = .ok (.j6nz ⟨.minus, 1, 2, 3⟩) ∧
    decode ⟨.minus, 1, 2, 3, 5, 46⟩ = .ok (.j6np ⟨.minus, 1, 2, 3⟩) ∧
    decode ⟨.minus, 1, 2, 3, 0, 47⟩ = .ok (.jxn ⟨.minus, 1, 2, 3⟩) ∧
    decode ⟨.minus, 1, 2, 3, 1, 47⟩ = .ok (.jxz ⟨.minus, 1, 2, 3⟩) ∧
    decode ⟨.minus, 1, 2, 3, 2, 47⟩ = .ok (.jxp ⟨.minus, 1, 2, 3⟩) ∧
    decode ⟨.minus, 1, 2, 3, 3, 47⟩ = .ok (.jxnn ⟨.minus, 1, 2, 3⟩) ∧
    decode ⟨.minus, 1, 2, 3, 4, 47⟩ = .ok (.jxnz ⟨.minus, 1, 2, 3⟩) ∧
    decode ⟨.minus, 1, 2, 3, 5, 47⟩ = .ok (.jxnp ⟨.minus, 1, 2, 3⟩) := by
  refine ⟨?_, ?_, ?_, ?_, ?_, ?_, ?_, ?_, ?_, ?_, ?_, ?_, ?_, ?_, ?_, ?_, ?_, ?_, ?_, ?_, ?_, ?_, ?_, ?_⟩ <;> rfl

theorem test_decode_transfer :
    decode ⟨.minus, 1, 2, 3, 0, 48⟩ = .ok (.inca ⟨.minus, 1, 2, 3⟩) ∧
    decode ⟨.minus, 1, 2, 3, 1, 48⟩ = .ok (.deca ⟨.minus, 1, 2, 3⟩) ∧
    decode ⟨.minus, 1, 2, 3, 2, 48⟩ = .ok (.enta ⟨.minus, 1, 2, 3⟩) ∧
    decode ⟨.minus, 1, 2, 3, 3, 48⟩ = .ok (.enna ⟨.minus, 1, 2, 3⟩) ∧
    decode ⟨.minus, 1, 2, 3, 0, 49⟩ = .ok (.inc1 ⟨.minus, 1, 2, 3⟩) ∧
    decode ⟨.minus, 1, 2, 3, 1, 49⟩ = .ok (.dec1 ⟨.minus, 1, 2, 3⟩) ∧
    decode ⟨.minus, 1, 2, 3, 2, 49⟩ = .ok (.ent1 ⟨.minus, 1, 2, 3⟩) ∧
    decode ⟨.minus, 1, 2, 3, 3, 49⟩ = .ok (.enn1 ⟨.minus, 1, 2, 3⟩) ∧
    decode ⟨.minus, 1, 2, 3, 0, 50⟩ = .ok (.inc2 ⟨.minus, 1, 2, 3⟩) ∧
    decode ⟨.minus, 1, 2, 3, 1, 50⟩ = .ok (.dec2 ⟨.minus, 1, 2, 3⟩) ∧
    decode ⟨.minus, 1, 2, 3, 2, 50⟩ = .ok (.ent2 ⟨.minus, 1, 2, 3⟩) ∧
    decode ⟨.minus, 1, 2, 3, 3, 50⟩ = .ok (.enn2 ⟨.minus, 1, 2, 3⟩) ∧
    decode ⟨.minus, 1, 2, 3, 0, 51⟩ = .ok (.inc3 ⟨.minus, 1, 2, 3⟩) ∧
    decode ⟨.minus, 1, 2, 3, 1, 51⟩ = .ok (.dec3 ⟨.minus, 1, 2, 3⟩) ∧
    decode ⟨.minus, 1, 2, 3, 2, 51⟩ = .ok (.ent3 ⟨.minus, 1, 2, 3⟩) ∧
    decode ⟨.minus, 1, 2, 3, 3, 51⟩ = .ok (.enn3 ⟨.minus, 1, 2, 3⟩) ∧
    decode ⟨.minus, 1, 2, 3, 0, 52⟩ = .ok (.inc4 ⟨.minus, 1, 2, 3⟩) ∧
    decode ⟨.minus, 1, 2, 3, 1, 52⟩ = .ok (.dec4 ⟨.minus, 1, 2, 3⟩) ∧
    decode ⟨.minus, 1, 2, 3, 2, 52⟩ = .ok (.ent4 ⟨.minus, 1, 2, 3⟩) ∧
    decode ⟨.minus, 1, 2, 3, 3, 52⟩ = .ok (.enn4 ⟨.minus, 1, 2, 3⟩) ∧
    decode ⟨.minus, 1, 2, 3, 0, 53⟩ = .ok (.inc5 ⟨.minus, 1, 2, 3⟩) ∧
    decode ⟨.minus, 1, 2, 3, 1, 53⟩ = .ok (.dec5 ⟨.minus, 1, 2, 3⟩) ∧
    decode ⟨.minus, 1, 2, 3, 2, 53⟩ = .ok (.ent5 ⟨.minus, 1, 2, 3⟩) ∧
    decode ⟨.minus, 1, 2, 3, 3, 53⟩ = .ok (.enn5 ⟨.minus, 1, 2, 3⟩) ∧
    decode ⟨.minus, 1, 2, 3, 0, 54⟩ = .ok (.inc6 ⟨.minus, 1, 2, 3⟩) ∧
    decode ⟨.minus, 1, 2, 3, 1, 54⟩ = .ok (.dec6 ⟨.minus, 1, 2, 3⟩) ∧
    decode ⟨.minus, 1, 2, 3, 2, 54⟩ = .ok (.ent6 ⟨.minus, 1, 2, 3⟩) ∧
    decode ⟨.minus, 1, 2, 3, 3, 54⟩ = .ok (.enn6 ⟨.minus, 1, 2, 3⟩) ∧
    decode ⟨.minus, 1, 2, 3, 0, 55⟩ = .ok (.incx ⟨.minus, 1, 2, 3⟩) ∧
    decode ⟨.minus, 1, 2, 3, 1, 55⟩ = .ok (.decx ⟨.minus, 1, 2, 3⟩) ∧
    decode ⟨.minus, 1, 2, 3, 2, 55⟩ = .ok (.entx ⟨.minus, 1, 2, 3⟩) ∧
    decode ⟨.minus, 1, 2, 3, 3, 55⟩ = .ok (.ennx ⟨.minus, 1, 2, 3⟩) := by
  refine ⟨?_, ?_, ?_, ?_, ?_, ?_, ?_, ?_, ?_, ?_, ?_, ?_, ?_, ?_, ?_, ?_, ?_, ?_, ?_, ?_, ?_, ?_, ?_, ?_, ?_, ?_, ?_, ?_, ?_, ?_, ?_, ?_⟩ <;> rfl

theorem test_decode_compare :
    decode ⟨.minus, 1, 2, 3, 13, 56⟩ = .ok (.cmpa ⟨.minus, 1, 2, 3⟩ 13) ∧
    decode ⟨.minus, 1, 2, 3, 13, 57⟩ = .ok (.cmp1 ⟨.minus, 1, 2, 3⟩ 13) ∧
    decode ⟨.minus, 1, 2, 3, 13, 58⟩ = .ok (.cmp2 ⟨.minus, 1, 2, 3⟩ 13) ∧
    decode ⟨.minus, 1, 2, 3, 13, 59⟩ = .ok (.cmp3 ⟨.minus, 1, 2, 3⟩ 13) ∧
    decode ⟨.minus, 1, 2, 3, 13, 60⟩ = .ok (.cmp4 ⟨.minus, 1, 2, 3⟩ 13) ∧
    decode ⟨.minus, 1, 2, 3, 13, 61⟩ = .ok (.cmp5 ⟨.minus, 1, 2, 3⟩ 13) ∧
    decode ⟨.minus, 1, 2, 3, 13, 62⟩ = .ok (.cmp6 ⟨.minus, 1, 2, 3⟩ 13) ∧
    decode ⟨.minus, 1, 2, 3, 13, 63⟩ = .ok (.cmpx ⟨.minus, 1, 2, 3⟩ 13) := by
  refine ⟨?_, ?_, ?_, ?_, ?_, ?_, ?_, ?_⟩ <;> rfl

theorem test_decode_illegal :
    decode ⟨.plus, 1, 2, 3, 3, 5⟩ = .error (.illegal 5 3) ∧ decode ⟨.plus, 1, 2, 3, 6, 6⟩ = .error (.illegal 6 6) ∧
      decode ⟨.plus, 1, 2, 3, 10, 39⟩ = .error (.illegal 39 10) ∧ decode ⟨.plus, 1, 2, 3, 6, 47⟩ = .error (.illegal 47 6) ∧
      decode ⟨.plus, 1, 2, 3, 4, 48⟩ = .error (.illegal 48 4) ∧ decode ⟨.plus, 1, 2, 3, 5, 64⟩ = .error (.illegal 64 5) := by
  refine ⟨?_, ?_, ?_, ?_, ?_, ?_⟩ <;> rfl

/-- The packed bits of `- 1 2 3 4 8` (30_encoding.md R96): 2^30 + 1*2^24 + 2*2^18 + 3*2^12 + 4*2^6 + 8; bit 31 is no bit of a word. -/
theorem test_decodeTableWord :
    decodeTableWord 32 1091055880 = some (.lda ⟨.minus, 1, 2, 3⟩ 4) ∧ decodeTableWord 16 385 = some (.fadd ⟨.plus, 0, 0, 0⟩) ∧
      decodeTableWord 32 (2 ^ 31 + 8) = none ∧ decodeTableWord 32 (10 * 64 + 39) = none := by
  refine ⟨?_, ?_, ?_, ?_⟩ <;> rfl

/-- Lines of the table of 30_encoding.md R102, for b = 64 and b = 100: a field, a normal F, a selecting F, a unit, a count. -/
theorem test_assemble :
    assemble 64 "LDA" .plus 2000 0 (some 45) = some ⟨.plus, 31, 16, 0, 45, 8⟩ ∧
      assemble 100 "LDA" .plus 2000 0 none = some ⟨.plus, 20, 0, 0, 5, 8⟩ ∧
      assemble 100 "STA" .plus 2000 0 none = some ⟨.plus, 20, 0, 0, 5, 24⟩ ∧
      assemble 64 "ADD" .plus 2000 0 (some 36) = some ⟨.plus, 31, 16, 0, 36, 1⟩ ∧
      assemble 64 "STJ" .plus 3000 0 none = some ⟨.plus, 46, 56, 0, 2, 32⟩ ∧
      assemble 100 "ENN3" .plus 0 3 none = some ⟨.plus, 0, 0, 3, 3, 51⟩ ∧
      assemble 64 "INCA" .plus 1 0 none = some ⟨.plus, 0, 1, 0, 0, 48⟩ ∧
      assemble 100 "SLC" .plus 501 0 none = some ⟨.plus, 5, 1, 0, 4, 6⟩ ∧
      assemble 64 "HLT" .plus 0 0 none = some ⟨.plus, 0, 0, 0, 2, 5⟩ ∧
      assemble 64 "MOVE" .plus 1000 0 (some 3) = some ⟨.plus, 15, 40, 0, 3, 7⟩ ∧
      assemble 64 "IOC" .minus 1 0 (some 3) = some ⟨.minus, 0, 1, 0, 3, 35⟩ ∧
      assemble 100 "JBUS" .plus 1000 0 (some 16) = some ⟨.plus, 10, 0, 0, 16, 34⟩ := by decide +kernel

/-- No F is written after an operator told apart by F (30_encoding.md R99, log 28). -/
theorem test_assemble_none :
    assemble 64 "INCA" .plus 1 0 (some 3) = none ∧ assemble 64 "INCA" .plus 1 0 (some 0) = none ∧
      assemble 64 "EQU" .plus 1 0 none = none := by decide +kernel

/-! ### One step -/

/-- The state after reset, at location 100. -/
def at100 : State := { State.reset with pc := 100 }

/-- Six index registers of +0. -/
def zeros : Indexes := State.reset.rI

/-- The step of `w` at the location counter answers a next state of which `ok` holds. -/
def runs (s : State) (w : Word) (ok : State → Bool) : Bool :=
  match step (s.placeWord w) with
  | .next t => ok t
  | .fault _ => false
  | .refused _ => false

/-- The step of `w` at the location counter faults so. -/
def faults (s : State) (w : Word) (f : Fault) : Bool :=
  match step (s.placeWord w) with
  | .next _ => false
  | .fault e => decide (e = f)
  | .refused _ => false

theorem test_L2_lda : runs { at100 with mem := [(2000, ⟨.minus, 1, 16, 3, 5, 4⟩)] }
    ⟨.plus, 31, 16, 0, 13, 8⟩ (fun t => decide (t.rA = ⟨.plus, 1, 16, 3, 5, 4⟩ ∧ t.pc = 101)) = true := by decide +kernel

theorem test_L5_lda : runs { at100 with mem := [(2000, ⟨.minus, 1, 16, 3, 5, 4⟩)] }
    ⟨.plus, 31, 16, 0, 36, 8⟩ (fun t => decide (t.rA = ⟨.plus, 0, 0, 0, 0, 5⟩ ∧ t.pc = 101)) = true := by decide +kernel

theorem test_L8_ldx : runs { at100 with mem := [(2000, ⟨.minus, 1, 16, 3, 5, 4⟩)] }
    ⟨.plus, 31, 16, 0, 2, 15⟩ (fun t => decide (t.rX = ⟨.minus, 0, 0, 0, 1, 16⟩ ∧ t.pc = 101)) = true := by decide +kernel

theorem test_L10_ld1 : runs { at100 with mem := [(2000, ⟨.minus, 1, 16, 3, 5, 4⟩)] }
    ⟨.plus, 31, 16, 0, 2, 9⟩ (fun t => decide (t.rI.i1 = ⟨.minus, 1, 16⟩ ∧ t.pc = 101)) = true := by decide +kernel

theorem test_L11_ld3 : runs { at100 with mem := [(2000, ⟨.minus, 1, 16, 3, 5, 4⟩)] }
    ⟨.plus, 31, 16, 0, 37, 11⟩ (fun t => decide (t.rI.i3 = ⟨.plus, 5, 4⟩ ∧ t.pc = 101)) = true := by decide +kernel

theorem test_L12_ld5 : runs { at100 with rI := { zeros with i5 := ⟨.plus, 3, 3⟩ }, mem := [(2000, ⟨.minus, 1, 16, 3, 5, 4⟩)] }
    ⟨.plus, 31, 16, 0, 0, 13⟩ (fun t => decide (t.rI.i5 = ⟨.minus, 0, 0⟩ ∧ t.pc = 101)) = true := by decide +kernel

theorem test_L15_ld6 : runs { at100 with mem := [(2000, ⟨.minus, 0, 0, 0, 63, 63⟩)] }
    ⟨.plus, 31, 16, 0, 5, 14⟩ (fun t => decide (t.rI.i6 = ⟨.minus, 63, 63⟩ ∧ t.pc = 101)) = true := by decide +kernel

theorem test_L17_ldan : runs { at100 with mem := [(2000, ⟨.minus, 1, 16, 3, 5, 4⟩)] }
    ⟨.plus, 31, 16, 0, 13, 16⟩ (fun t => decide (t.rA = ⟨.minus, 1, 16, 3, 5, 4⟩ ∧ t.pc = 101)) = true := by decide +kernel

theorem test_L18_ldan : runs at100
    ⟨.plus, 31, 16, 0, 5, 16⟩ (fun t => decide (t.rA = ⟨.minus, 0, 0, 0, 0, 0⟩ ∧ t.pc = 101)) = true := by decide +kernel

theorem test_L19_ldxn : runs { at100 with rX := ⟨.minus, 7, 7, 7, 7, 7⟩, mem := [(2000, ⟨.minus, 1, 16, 3, 5, 4⟩)] }
    ⟨.plus, 31, 16, 0, 0, 23⟩ (fun t => decide (t.rX = ⟨.plus, 0, 0, 0, 0, 0⟩ ∧ t.pc = 101)) = true := by decide +kernel

theorem test_L20_ld4n : runs { at100 with mem := [(2000, ⟨.minus, 1, 16, 3, 5, 4⟩)] }
    ⟨.plus, 31, 16, 0, 37, 20⟩ (fun t => decide (t.rI.i4 = ⟨.minus, 5, 4⟩ ∧ t.pc = 101)) = true := by decide +kernel

theorem test_S5_sta : runs { at100 with rA := ⟨.plus, 6, 7, 8, 9, 0⟩, mem := [(2000, ⟨.minus, 1, 2, 3, 4, 5⟩)] }
    ⟨.plus, 31, 16, 0, 19, 24⟩ (fun t => decide (t.pc = 101 ∧ t.cell 2000 = ⟨.minus, 1, 9, 0, 4, 5⟩)) = true := by decide +kernel

theorem test_S6_sta : runs { at100 with rA := ⟨.plus, 6, 7, 8, 9, 0⟩, mem := [(2000, ⟨.minus, 1, 2, 3, 4, 5⟩)] }
    ⟨.plus, 31, 16, 0, 1, 24⟩ (fun t => decide (t.pc = 101 ∧ t.cell 2000 = ⟨.plus, 0, 2, 3, 4, 5⟩)) = true := by decide +kernel

theorem test_S11_stx : runs { at100 with rX := ⟨.plus, 9, 8, 7, 6, 5⟩, mem := [(2000, ⟨.minus, 1, 2, 3, 4, 5⟩)] }
    ⟨.plus, 31, 16, 0, 3, 31⟩ (fun t => decide (t.pc = 101 ∧ t.cell 2000 = ⟨.plus, 7, 6, 5, 4, 5⟩)) = true := by decide +kernel

theorem test_S12_st2 : runs { at100 with rI := { zeros with i2 := ⟨.plus, 7, 9⟩ }, mem := [(2000, ⟨.minus, 1, 2, 3, 4, 5⟩)] }
    ⟨.plus, 31, 16, 0, 5, 26⟩ (fun t => decide (t.pc = 101 ∧ t.cell 2000 = ⟨.plus, 0, 0, 0, 7, 9⟩)) = true := by decide +kernel

theorem test_S15_st6 : runs { at100 with rI := { zeros with i6 := ⟨.minus, 0, 0⟩ }, mem := [(2000, ⟨.plus, 1, 2, 3, 4, 5⟩)] }
    ⟨.plus, 31, 16, 0, 0, 30⟩ (fun t => decide (t.pc = 101 ∧ t.cell 2000 = ⟨.minus, 1, 2, 3, 4, 5⟩)) = true := by decide +kernel

theorem test_S16_stj : runs { at100 with rJ := 1234, mem := [(2000, ⟨.minus, 1, 2, 3, 4, 5⟩)] }
    ⟨.plus, 31, 16, 0, 2, 32⟩ (fun t => decide (t.pc = 101 ∧ t.cell 2000 = ⟨.plus, 19, 18, 3, 4, 5⟩)) = true := by decide +kernel

theorem test_S20_stz : runs { at100 with mem := [(2000, ⟨.minus, 1, 2, 3, 4, 5⟩)] }
    ⟨.plus, 31, 16, 0, 5, 33⟩ (fun t => decide (t.pc = 101 ∧ t.cell 2000 = ⟨.plus, 0, 0, 0, 0, 0⟩)) = true := by decide +kernel

theorem test_A3_add : runs { at100 with rA := ⟨.plus, 0, 0, 0, 0, 5⟩, mem := [(1000, ⟨.minus, 0, 0, 0, 0, 5⟩)] }
    ⟨.plus, 15, 40, 0, 5, 1⟩ (fun t => decide (t.rA = ⟨.plus, 0, 0, 0, 0, 0⟩ ∧ t.pc = 101)) = true := by decide +kernel

theorem test_A6_add : runs { at100 with rA := ⟨.plus, 63, 63, 63, 63, 63⟩, mem := [(1000, ⟨.plus, 0, 0, 0, 0, 1⟩)] }
    ⟨.plus, 15, 40, 0, 5, 1⟩ (fun t => decide (t.rA = ⟨.plus, 0, 0, 0, 0, 0⟩ ∧ t.pc = 101 ∧ t.ov = true)) = true := by decide +kernel

theorem test_A14_sub : runs { at100 with rA := ⟨.plus, 0, 0, 0, 0, 5⟩, mem := [(1000, ⟨.plus, 0, 0, 0, 0, 9⟩)] }
    ⟨.plus, 15, 40, 0, 5, 2⟩ (fun t => decide (t.rA = ⟨.minus, 0, 0, 0, 0, 4⟩ ∧ t.pc = 101)) = true := by decide +kernel

theorem test_A15_sub : runs { at100 with rA := ⟨.plus, 63, 63, 63, 63, 63⟩, mem := [(1000, ⟨.minus, 0, 0, 0, 0, 2⟩)] }
    ⟨.plus, 15, 40, 0, 5, 2⟩ (fun t => decide (t.rA = ⟨.plus, 0, 0, 0, 0, 1⟩ ∧ t.pc = 101 ∧ t.ov = true)) = true := by decide +kernel

theorem test_A18_mul : runs { at100 with rA := ⟨.plus, 0, 0, 0, 0, 12⟩, rX := ⟨.minus, 9, 9, 9, 9, 9⟩, mem := [(1000, ⟨.minus, 0, 0, 0, 0, 3⟩)] }
    ⟨.plus, 15, 40, 0, 5, 3⟩ (fun t => decide (t.rA = ⟨.minus, 0, 0, 0, 0, 0⟩ ∧ t.rX = ⟨.minus, 0, 0, 0, 0, 36⟩ ∧ t.pc = 101)) = true := by decide +kernel

theorem test_A20_mul : runs { at100 with rA := ⟨.minus, 0, 0, 0, 0, 2⟩, mem := [(1000, ⟨.minus, 3, 0, 0, 0, 0⟩)] }
    ⟨.plus, 15, 40, 0, 9, 3⟩ (fun t => decide (t.rA = ⟨.minus, 0, 0, 0, 0, 0⟩ ∧ t.rX = ⟨.minus, 0, 0, 0, 0, 6⟩ ∧ t.pc = 101)) = true := by decide +kernel

theorem test_A26_div : runs { at100 with rA := ⟨.minus, 0, 0, 0, 0, 0⟩, rX := ⟨.plus, 0, 0, 0, 0, 17⟩, mem := [(1000, ⟨.plus, 0, 0, 0, 0, 3⟩)] }
    ⟨.plus, 15, 40, 0, 5, 4⟩ (fun t => decide (t.rA = ⟨.minus, 0, 0, 0, 0, 5⟩ ∧ t.rX = ⟨.minus, 0, 0, 0, 0, 2⟩ ∧ t.pc = 101)) = true := by decide +kernel

theorem test_A30_div : runs { at100 with rA := ⟨.plus, 0, 0, 0, 0, 1⟩, rX := ⟨.plus, 0, 0, 0, 0, 0⟩, mem := [(1000, ⟨.plus, 0, 0, 0, 0, 2⟩)] }
    ⟨.plus, 15, 40, 0, 5, 4⟩ (fun t => decide (t.rA = ⟨.plus, 32, 0, 0, 0, 0⟩ ∧ t.pc = 101)) = true := by decide +kernel

theorem test_T2_enta : runs { at100 with rA := ⟨.plus, 1, 2, 3, 4, 5⟩ }
    ⟨.minus, 0, 0, 0, 2, 48⟩ (fun t => decide (t.rA = ⟨.minus, 0, 0, 0, 0, 0⟩ ∧ t.pc = 101)) = true := by decide +kernel

theorem test_T4_enta : runs { at100 with rI := { zeros with i1 := ⟨.plus, 0, 0⟩ } }
    ⟨.minus, 0, 0, 1, 2, 48⟩ (fun t => decide (t.rA = ⟨.minus, 0, 0, 0, 0, 0⟩ ∧ t.pc = 101)) = true := by decide +kernel

theorem test_T9_entx : runs { at100 with rX := ⟨.plus, 1, 1, 1, 1, 1⟩ }
    ⟨.minus, 0, 7, 0, 2, 55⟩ (fun t => decide (t.rX = ⟨.minus, 0, 0, 0, 0, 7⟩ ∧ t.pc = 101)) = true := by decide +kernel

theorem test_T10_ent1 : runs at100
    ⟨.plus, 62, 31, 0, 2, 49⟩ (fun t => decide (t.rI.i1 = ⟨.plus, 62, 31⟩ ∧ t.pc = 101)) = true := by decide +kernel

theorem test_T11_ent3 : runs { at100 with rI := { zeros with i3 := ⟨.plus, 0, 9⟩ } }
    ⟨.plus, 0, 1, 3, 2, 51⟩ (fun t => decide (t.rI.i3 = ⟨.plus, 0, 10⟩ ∧ t.pc = 101)) = true := by decide +kernel

theorem test_T12_ent2 : runs at100
    ⟨.plus, 63, 63, 0, 2, 50⟩ (fun t => decide (t.rI.i2 = ⟨.plus, 63, 63⟩ ∧ t.pc = 101)) = true := by decide +kernel

theorem test_T14_enna : runs at100
    ⟨.plus, 0, 0, 0, 3, 48⟩ (fun t => decide (t.rA = ⟨.minus, 0, 0, 0, 0, 0⟩ ∧ t.pc = 101)) = true := by decide +kernel

theorem test_T16_ennx : runs at100
    ⟨.minus, 0, 7, 0, 3, 55⟩ (fun t => decide (t.rX = ⟨.plus, 0, 0, 0, 0, 7⟩ ∧ t.pc = 101)) = true := by decide +kernel

theorem test_T17_enn3 : runs { at100 with rI := { zeros with i3 := ⟨.plus, 0, 9⟩ } }
    ⟨.plus, 0, 0, 3, 3, 51⟩ (fun t => decide (t.rI.i3 = ⟨.minus, 0, 9⟩ ∧ t.pc = 101)) = true := by decide +kernel

theorem test_T19_enn3 : runs { at100 with rI := { zeros with i3 := ⟨.plus, 0, 0⟩ } }
    ⟨.plus, 0, 0, 3, 3, 51⟩ (fun t => decide (t.rI.i3 = ⟨.minus, 0, 0⟩ ∧ t.pc = 101)) = true := by decide +kernel

theorem test_T21_inca : runs { at100 with rA := ⟨.plus, 0, 0, 0, 0, 41⟩ }
    ⟨.plus, 0, 1, 0, 0, 48⟩ (fun t => decide (t.rA = ⟨.plus, 0, 0, 0, 0, 42⟩ ∧ t.pc = 101)) = true := by decide +kernel

theorem test_T22_inca : runs { at100 with rA := ⟨.plus, 63, 63, 63, 63, 63⟩ }
    ⟨.plus, 0, 1, 0, 0, 48⟩ (fun t => decide (t.rA = ⟨.plus, 0, 0, 0, 0, 0⟩ ∧ t.pc = 101 ∧ t.ov = true)) = true := by decide +kernel

theorem test_T28_incx : runs { at100 with rX := ⟨.minus, 63, 63, 63, 63, 63⟩ }
    ⟨.minus, 0, 2, 0, 0, 55⟩ (fun t => decide (t.rX = ⟨.minus, 0, 0, 0, 0, 1⟩ ∧ t.pc = 101 ∧ t.ov = true)) = true := by decide +kernel

theorem test_T30_deca : runs { at100 with rA := ⟨.plus, 0, 0, 0, 0, 5⟩ }
    ⟨.plus, 0, 5, 0, 1, 48⟩ (fun t => decide (t.rA = ⟨.plus, 0, 0, 0, 0, 0⟩ ∧ t.pc = 101)) = true := by decide +kernel

theorem test_T31_deca : runs { at100 with rA := ⟨.plus, 63, 63, 63, 63, 63⟩ }
    ⟨.minus, 0, 1, 0, 1, 48⟩ (fun t => decide (t.rA = ⟨.plus, 0, 0, 0, 0, 0⟩ ∧ t.pc = 101 ∧ t.ov = true)) = true := by decide +kernel

theorem test_T33_decx : runs { at100 with rX := ⟨.minus, 63, 63, 63, 63, 62⟩ }
    ⟨.plus, 0, 3, 0, 1, 55⟩ (fun t => decide (t.rX = ⟨.minus, 0, 0, 0, 0, 1⟩ ∧ t.pc = 101 ∧ t.ov = true)) = true := by decide +kernel

theorem test_T35_inc1 : runs { at100 with rI := { zeros with i1 := ⟨.plus, 0, 1⟩ } }
    ⟨.minus, 0, 3, 0, 0, 49⟩ (fun t => decide (t.rI.i1 = ⟨.minus, 0, 2⟩ ∧ t.pc = 101)) = true := by decide +kernel

theorem test_T37_inc2 : runs { at100 with rI := { zeros with i2 := ⟨.minus, 0, 5⟩ } }
    ⟨.plus, 0, 5, 0, 0, 50⟩ (fun t => decide (t.rI.i2 = ⟨.minus, 0, 0⟩ ∧ t.pc = 101)) = true := by decide +kernel

theorem test_T38_inc2 : runs { at100 with rI := { zeros with i2 := ⟨.plus, 0, 7⟩ } }
    ⟨.plus, 0, 0, 2, 0, 50⟩ (fun t => decide (t.rI.i2 = ⟨.plus, 0, 14⟩ ∧ t.pc = 101)) = true := by decide +kernel

theorem test_T41_dec6 : runs { at100 with rI := { zeros with i6 := ⟨.plus, 0, 0⟩ } }
    ⟨.plus, 0, 1, 0, 1, 54⟩ (fun t => decide (t.rI.i6 = ⟨.minus, 0, 1⟩ ∧ t.pc = 101)) = true := by decide +kernel

theorem test_T42_dec6 : runs { at100 with rI := { zeros with i6 := ⟨.minus, 0, 9⟩ } }
    ⟨.plus, 0, 0, 6, 1, 54⟩ (fun t => decide (t.rI.i6 = ⟨.minus, 0, 0⟩ ∧ t.pc = 101)) = true := by decide +kernel

theorem test_C1_cmpa : runs { at100 with rA := ⟨.minus, 0, 0, 0, 0, 0⟩, ci := .less }
    ⟨.plus, 15, 40, 0, 5, 56⟩ (fun t => decide (t.pc = 101 ∧ t.ci = .equal)) = true := by decide +kernel

theorem test_C5_cmpa : runs { at100 with rA := ⟨.minus, 0, 0, 0, 0, 9⟩, mem := [(1000, ⟨.minus, 0, 0, 0, 0, 5⟩)] }
    ⟨.plus, 15, 40, 0, 13, 56⟩ (fun t => decide (t.pc = 101 ∧ t.ci = .greater)) = true := by decide +kernel

theorem test_C10_cmpx : runs { at100 with rX := ⟨.plus, 63, 63, 63, 63, 63⟩, mem := [(1000, ⟨.plus, 63, 63, 63, 63, 62⟩)] }
    ⟨.plus, 15, 40, 0, 5, 63⟩ (fun t => decide (t.pc = 101 ∧ t.ci = .greater)) = true := by decide +kernel

theorem test_C12_cmp1 : runs { at100 with ci := .less, rI := { zeros with i1 := ⟨.plus, 0, 5⟩ }, mem := [(1000, ⟨.plus, 0, 0, 0, 0, 5⟩)] }
    ⟨.plus, 15, 40, 0, 5, 57⟩ (fun t => decide (t.pc = 101 ∧ t.ci = .equal)) = true := by decide +kernel

theorem test_C14_cmp1 : runs { at100 with ci := .greater, rI := { zeros with i1 := ⟨.plus, 9, 9⟩ }, mem := [(1000, ⟨.plus, 0, 0, 9, 9, 9⟩)] }
    ⟨.plus, 15, 40, 0, 10, 57⟩ (fun t => decide (t.pc = 101 ∧ t.ci = .equal)) = true := by decide +kernel

theorem test_C16_cmp3 : runs { at100 with rI := { zeros with i3 := ⟨.minus, 0, 5⟩ }, mem := [(1000, ⟨.minus, 0, 0, 0, 0, 4⟩)] }
    ⟨.plus, 15, 40, 0, 5, 59⟩ (fun t => decide (t.pc = 101 ∧ t.ci = .less)) = true := by decide +kernel

theorem test_C17_cmp6 : runs { at100 with rI := { zeros with i6 := ⟨.minus, 0, 5⟩ }, mem := [(1000, ⟨.minus, 0, 0, 0, 0, 4⟩)] }
    ⟨.plus, 15, 40, 0, 37, 62⟩ (fun t => decide (t.pc = 101 ∧ t.ci = .greater)) = true := by decide +kernel

theorem test_C18_cmp2 : runs { at100 with ci := .less, rI := { zeros with i2 := ⟨.minus, 7, 7⟩ }, mem := [(1000, ⟨.plus, 0, 0, 0, 9, 9⟩)] }
    ⟨.plus, 15, 40, 0, 3, 58⟩ (fun t => decide (t.pc = 101 ∧ t.ci = .equal)) = true := by decide +kernel

theorem test_J1_jmp : runs { at100 with rJ := 7 }
    ⟨.plus, 31, 16, 0, 0, 39⟩ (fun t => decide (t.rJ = 101 ∧ t.pc = 2000)) = true := by decide +kernel

theorem test_J5_jmp : runs { at100 with rJ := 7, rI := { zeros with i1 := ⟨.plus, 0, 10⟩ } }
    ⟨.plus, 31, 6, 1, 0, 39⟩ (fun t => decide (t.rJ = 101 ∧ t.pc = 2000)) = true := by decide +kernel

theorem test_J6_jsj : runs { at100 with rJ := 7 }
    ⟨.plus, 31, 16, 0, 1, 39⟩ (fun t => decide (t.pc = 2000)) = true := by decide +kernel

theorem test_J7_jov : runs { at100 with rJ := 7, ov := true }
    ⟨.plus, 31, 16, 0, 2, 39⟩ (fun t => decide (t.rJ = 101 ∧ t.pc = 2000 ∧ t.ov = false)) = true := by decide +kernel

theorem test_J9_jnov : runs { at100 with rJ := 7 }
    ⟨.plus, 31, 16, 0, 3, 39⟩ (fun t => decide (t.rJ = 101 ∧ t.pc = 2000)) = true := by decide +kernel

theorem test_J10_jnov : runs { at100 with rJ := 7, ov := true }
    ⟨.plus, 31, 16, 0, 3, 39⟩ (fun t => decide (t.pc = 101 ∧ t.ov = false)) = true := by decide +kernel

theorem test_J11_jl : runs { at100 with rJ := 7, ci := .less }
    ⟨.plus, 31, 16, 0, 4, 39⟩ (fun t => decide (t.rJ = 101 ∧ t.pc = 2000)) = true := by decide +kernel

theorem test_J15_je : runs { at100 with rJ := 7, ci := .equal }
    ⟨.plus, 31, 16, 0, 5, 39⟩ (fun t => decide (t.rJ = 101 ∧ t.pc = 2000)) = true := by decide +kernel

theorem test_J19_jg : runs { at100 with rJ := 7, ci := .greater }
    ⟨.plus, 31, 16, 0, 6, 39⟩ (fun t => decide (t.rJ = 101 ∧ t.pc = 2000)) = true := by decide +kernel

theorem test_J22_jge : runs { at100 with rJ := 7, ci := .greater }
    ⟨.plus, 31, 16, 0, 7, 39⟩ (fun t => decide (t.rJ = 101 ∧ t.pc = 2000)) = true := by decide +kernel

theorem test_J23_jne : runs { at100 with rJ := 7, ci := .less }
    ⟨.plus, 31, 16, 0, 8, 39⟩ (fun t => decide (t.rJ = 101 ∧ t.pc = 2000)) = true := by decide +kernel

theorem test_J27_jle : runs { at100 with rJ := 7, ci := .equal }
    ⟨.plus, 31, 16, 0, 9, 39⟩ (fun t => decide (t.rJ = 101 ∧ t.pc = 2000)) = true := by decide +kernel

theorem test_J30_jaz : runs { at100 with rA := ⟨.minus, 0, 0, 0, 0, 0⟩, rJ := 7 }
    ⟨.plus, 31, 16, 0, 1, 40⟩ (fun t => decide (t.rJ = 101 ∧ t.pc = 2000)) = true := by decide +kernel

theorem test_J32_jann : runs { at100 with rA := ⟨.minus, 0, 0, 0, 0, 0⟩, rJ := 7 }
    ⟨.plus, 31, 16, 0, 3, 40⟩ (fun t => decide (t.rJ = 101 ∧ t.pc = 2000)) = true := by decide +kernel

theorem test_J34_janp : runs { at100 with rA := ⟨.minus, 0, 0, 0, 0, 0⟩, rJ := 7 }
    ⟨.plus, 31, 16, 0, 5, 40⟩ (fun t => decide (t.rJ = 101 ∧ t.pc = 2000)) = true := by decide +kernel

theorem test_J35_jan : runs { at100 with rA := ⟨.minus, 0, 0, 0, 0, 1⟩, rJ := 7 }
    ⟨.plus, 31, 16, 0, 0, 40⟩ (fun t => decide (t.rJ = 101 ∧ t.pc = 2000)) = true := by decide +kernel

theorem test_J37_jap : runs { at100 with rA := ⟨.plus, 1, 0, 0, 0, 0⟩, rJ := 7 }
    ⟨.plus, 31, 16, 0, 2, 40⟩ (fun t => decide (t.rJ = 101 ∧ t.pc = 2000)) = true := by decide +kernel

theorem test_J40_jxz : runs { at100 with rX := ⟨.minus, 0, 0, 0, 0, 0⟩, rJ := 7 }
    ⟨.plus, 31, 16, 0, 1, 47⟩ (fun t => decide (t.rJ = 101 ∧ t.pc = 2000)) = true := by decide +kernel

theorem test_J41_jxnz : runs { at100 with rX := ⟨.plus, 0, 0, 1, 0, 0⟩, rJ := 7 }
    ⟨.plus, 31, 16, 0, 4, 47⟩ (fun t => decide (t.rJ = 101 ∧ t.pc = 2000)) = true := by decide +kernel

theorem test_J43_j1p : runs { at100 with rJ := 7, rI := { zeros with i1 := ⟨.plus, 0, 3⟩ } }
    ⟨.plus, 31, 16, 0, 2, 41⟩ (fun t => decide (t.rJ = 101 ∧ t.pc = 2000)) = true := by decide +kernel

theorem test_J46_j3z : runs { at100 with rJ := 7, rI := { zeros with i3 := ⟨.minus, 0, 0⟩ } }
    ⟨.plus, 31, 16, 0, 1, 43⟩ (fun t => decide (t.rJ = 101 ∧ t.pc = 2000)) = true := by decide +kernel

theorem test_J47_j4nn : runs { at100 with rJ := 7, rI := { zeros with i4 := ⟨.minus, 0, 0⟩ } }
    ⟨.plus, 31, 16, 0, 3, 44⟩ (fun t => decide (t.rJ = 101 ∧ t.pc = 2000)) = true := by decide +kernel

theorem test_J48_j5nz : runs { at100 with rJ := 7, rI := { zeros with i5 := ⟨.minus, 0, 1⟩ } }
    ⟨.plus, 31, 16, 0, 4, 45⟩ (fun t => decide (t.rJ = 101 ∧ t.pc = 2000)) = true := by decide +kernel

theorem test_J50_j6np : runs { at100 with rJ := 7, rI := { zeros with i6 := ⟨.minus, 0, 1⟩ } }
    ⟨.plus, 31, 15, 6, 5, 46⟩ (fun t => decide (t.rJ = 101 ∧ t.pc = 1998)) = true := by decide +kernel

theorem test_M2_sla : runs { at100 with rA := ⟨.plus, 1, 2, 3, 4, 5⟩, rX := ⟨.minus, 6, 7, 8, 9, 10⟩ }
    ⟨.plus, 0, 5, 0, 0, 6⟩ (fun t => decide (t.rA = ⟨.plus, 0, 0, 0, 0, 0⟩ ∧ t.pc = 101)) = true := by decide +kernel

theorem test_M4_sla : runs { at100 with rA := ⟨.plus, 1, 2, 3, 4, 5⟩, rX := ⟨.minus, 6, 7, 8, 9, 10⟩ }
    ⟨.plus, 63, 63, 0, 0, 6⟩ (fun t => decide (t.rA = ⟨.plus, 0, 0, 0, 0, 0⟩ ∧ t.pc = 101)) = true := by decide +kernel

theorem test_M6_sra : runs { at100 with rA := ⟨.plus, 1, 2, 3, 4, 5⟩, rX := ⟨.minus, 6, 7, 8, 9, 10⟩ }
    ⟨.plus, 0, 4, 0, 1, 6⟩ (fun t => decide (t.rA = ⟨.plus, 0, 0, 0, 0, 1⟩ ∧ t.pc = 101)) = true := by decide +kernel

theorem test_M8_slax : runs { at100 with rA := ⟨.plus, 1, 2, 3, 4, 5⟩, rX := ⟨.minus, 6, 7, 8, 9, 10⟩ }
    ⟨.plus, 0, 1, 0, 2, 6⟩ (fun t => decide (t.rA = ⟨.plus, 2, 3, 4, 5, 6⟩ ∧ t.rX = ⟨.minus, 7, 8, 9, 10, 0⟩ ∧ t.pc = 101)) = true := by decide +kernel

theorem test_M11_slax : runs { at100 with rA := ⟨.plus, 1, 2, 3, 4, 5⟩, rX := ⟨.minus, 6, 7, 8, 9, 10⟩ }
    ⟨.plus, 0, 10, 0, 2, 6⟩ (fun t => decide (t.rA = ⟨.plus, 0, 0, 0, 0, 0⟩ ∧ t.rX = ⟨.minus, 0, 0, 0, 0, 0⟩ ∧ t.pc = 101)) = true := by decide +kernel

theorem test_M12_srax : runs { at100 with rA := ⟨.plus, 1, 2, 3, 4, 5⟩, rX := ⟨.minus, 6, 7, 8, 9, 10⟩ }
    ⟨.plus, 0, 1, 0, 3, 6⟩ (fun t => decide (t.rA = ⟨.plus, 0, 1, 2, 3, 4⟩ ∧ t.rX = ⟨.minus, 5, 6, 7, 8, 9⟩ ∧ t.pc = 101)) = true := by decide +kernel

theorem test_M14_srax : runs { at100 with rA := ⟨.plus, 1, 2, 3, 4, 5⟩, rX := ⟨.minus, 6, 7, 8, 9, 10⟩ }
    ⟨.plus, 0, 9, 0, 3, 6⟩ (fun t => decide (t.rA = ⟨.plus, 0, 0, 0, 0, 0⟩ ∧ t.rX = ⟨.minus, 0, 0, 0, 0, 1⟩ ∧ t.pc = 101)) = true := by decide +kernel

theorem test_M16_slc : runs { at100 with rA := ⟨.plus, 1, 2, 3, 4, 5⟩, rX := ⟨.minus, 6, 7, 8, 9, 10⟩ }
    ⟨.plus, 0, 1, 0, 4, 6⟩ (fun t => decide (t.rA = ⟨.plus, 2, 3, 4, 5, 6⟩ ∧ t.rX = ⟨.minus, 7, 8, 9, 10, 1⟩ ∧ t.pc = 101)) = true := by decide +kernel

theorem test_M19_slc : runs { at100 with rA := ⟨.plus, 1, 2, 3, 4, 5⟩, rX := ⟨.minus, 6, 7, 8, 9, 10⟩ }
    ⟨.plus, 0, 13, 0, 4, 6⟩ (fun t => decide (t.rA = ⟨.plus, 4, 5, 6, 7, 8⟩ ∧ t.rX = ⟨.minus, 9, 10, 1, 2, 3⟩ ∧ t.pc = 101)) = true := by decide +kernel

theorem test_M20_src : runs { at100 with rA := ⟨.plus, 1, 2, 3, 4, 5⟩, rX := ⟨.minus, 6, 7, 8, 9, 10⟩ }
    ⟨.plus, 0, 1, 0, 5, 6⟩ (fun t => decide (t.rA = ⟨.plus, 10, 1, 2, 3, 4⟩ ∧ t.rX = ⟨.minus, 5, 6, 7, 8, 9⟩ ∧ t.pc = 101)) = true := by decide +kernel

theorem test_M22_src : runs { at100 with rA := ⟨.plus, 1, 2, 3, 4, 5⟩, rX := ⟨.minus, 6, 7, 8, 9, 10⟩ }
    ⟨.plus, 0, 27, 0, 5, 6⟩ (fun t => decide (t.rA = ⟨.plus, 4, 5, 6, 7, 8⟩ ∧ t.rX = ⟨.minus, 9, 10, 1, 2, 3⟩ ∧ t.pc = 101)) = true := by decide +kernel

theorem test_M24_sra : runs { at100 with rA := ⟨.plus, 1, 2, 3, 4, 5⟩, rX := ⟨.minus, 6, 7, 8, 9, 10⟩, rI := { zeros with i1 := ⟨.minus, 0, 1⟩ } }
    ⟨.plus, 0, 3, 1, 1, 6⟩ (fun t => decide (t.rA = ⟨.plus, 0, 0, 1, 2, 3⟩ ∧ t.pc = 101)) = true := by decide +kernel

theorem test_M31_move : runs { at100 with rI := { zeros with i1 := ⟨.plus, 15, 41⟩ }, mem := [(1000, ⟨.plus, 0, 0, 0, 15, 40⟩), (1001, ⟨.plus, 0, 0, 0, 15, 41⟩), (1002, ⟨.plus, 0, 0, 0, 15, 42⟩), (1003, ⟨.plus, 0, 0, 0, 15, 43⟩), (1004, ⟨.plus, 0, 0, 0, 15, 44⟩), (1005, ⟨.plus, 0, 0, 0, 15, 45⟩)] }
    ⟨.plus, 15, 40, 0, 3, 7⟩ (fun t => decide (t.rI.i1 = ⟨.plus, 15, 44⟩ ∧ t.pc = 101 ∧ t.cell 1001 = ⟨.plus, 0, 0, 0, 15, 40⟩ ∧ t.cell 1002 = ⟨.plus, 0, 0, 0, 15, 40⟩ ∧ t.cell 1003 = ⟨.plus, 0, 0, 0, 15, 40⟩)) = true := by decide +kernel

theorem test_M36_move : runs { at100 with rI := { zeros with i1 := ⟨.minus, 0, 0⟩ }, mem := [(1000, ⟨.plus, 0, 0, 0, 15, 40⟩), (1001, ⟨.plus, 0, 0, 0, 15, 41⟩), (1002, ⟨.plus, 0, 0, 0, 15, 42⟩), (1003, ⟨.plus, 0, 0, 0, 15, 43⟩), (1004, ⟨.plus, 0, 0, 0, 15, 44⟩), (1005, ⟨.plus, 0, 0, 0, 15, 45⟩)] }
    ⟨.plus, 15, 40, 0, 1, 7⟩ (fun t => decide (t.rI.i1 = ⟨.plus, 0, 1⟩ ∧ t.pc = 101 ∧ t.cell 0 = ⟨.plus, 0, 0, 0, 15, 40⟩)) = true := by decide +kernel

theorem test_M45_hlt : runs at100
    ⟨.plus, 0, 0, 0, 2, 5⟩ (fun t => decide (t.pc = 101 ∧ t.halted = true)) = true := by decide +kernel

theorem test_N1_num : runs { at100 with rA := ⟨.minus, 0, 0, 31, 32, 39⟩, rX := ⟨.plus, 37, 57, 47, 30, 30⟩ }
    ⟨.plus, 0, 0, 0, 0, 5⟩ (fun t => decide (t.rA = ⟨.minus, 0, 49, 32, 24, 36⟩ ∧ t.pc = 101)) = true := by decide +kernel

theorem test_N3_num : runs { at100 with rA := ⟨.plus, 30, 30, 30, 30, 30⟩, rX := ⟨.plus, 30, 30, 30, 30, 31⟩ }
    ⟨.plus, 0, 0, 0, 0, 5⟩ (fun t => decide (t.rA = ⟨.plus, 0, 0, 0, 0, 1⟩ ∧ t.pc = 101)) = true := by decide +kernel

theorem test_N9_char : runs { at100 with rA := ⟨.minus, 0, 0, 0, 0, 0⟩, rX := ⟨.minus, 1, 2, 3, 4, 5⟩ }
    ⟨.plus, 0, 0, 0, 1, 5⟩ (fun t => decide (t.rA = ⟨.minus, 30, 30, 30, 30, 30⟩ ∧ t.rX = ⟨.minus, 30, 30, 30, 30, 30⟩ ∧ t.pc = 101)) = true := by decide +kernel

theorem test_N12_char : runs { at100 with rA := ⟨.plus, 63, 63, 63, 63, 63⟩, rX := ⟨.minus, 0, 0, 0, 0, 0⟩ }
    ⟨.plus, 0, 0, 0, 1, 5⟩ (fun t => decide (t.rA = ⟨.plus, 31, 30, 37, 33, 37⟩ ∧ t.rX = ⟨.minus, 34, 31, 38, 32, 33⟩ ∧ t.pc = 101)) = true := by decide +kernel

theorem test_more_load :
    (runs { at100 with mem := [(2000, ⟨.minus, 0, 0, 0, 3, 4⟩)] } ⟨.plus, 31, 16, 0, 5, 10⟩ (fun t => decide (t.rI.i2 = ⟨.minus, 3, 4⟩)) &&
      runs { at100 with mem := [(2000, ⟨.minus, 0, 0, 0, 3, 4⟩)] } ⟨.plus, 31, 16, 0, 5, 12⟩ (fun t => decide (t.rI.i4 = ⟨.minus, 3, 4⟩)) &&
      runs { at100 with mem := [(2000, ⟨.minus, 0, 0, 0, 3, 4⟩)] } ⟨.plus, 31, 16, 0, 5, 17⟩ (fun t => decide (t.rI.i1 = ⟨.plus, 3, 4⟩)) &&
      runs { at100 with mem := [(2000, ⟨.minus, 0, 0, 0, 3, 4⟩)] } ⟨.plus, 31, 16, 0, 5, 18⟩ (fun t => decide (t.rI.i2 = ⟨.plus, 3, 4⟩)) &&
      runs { at100 with mem := [(2000, ⟨.minus, 0, 0, 0, 3, 4⟩)] } ⟨.plus, 31, 16, 0, 5, 19⟩ (fun t => decide (t.rI.i3 = ⟨.plus, 3, 4⟩)) &&
      runs { at100 with mem := [(2000, ⟨.minus, 0, 0, 0, 3, 4⟩)] } ⟨.plus, 31, 16, 0, 5, 21⟩ (fun t => decide (t.rI.i5 = ⟨.plus, 3, 4⟩)) &&
      runs { at100 with mem := [(2000, ⟨.minus, 0, 0, 0, 3, 4⟩)] } ⟨.plus, 31, 16, 0, 5, 22⟩ (fun t => decide (t.rI.i6 = ⟨.plus, 3, 4⟩))) = true := by decide +kernel

theorem test_more_store :
    (runs { at100 with rI := { zeros with i1 := ⟨.minus, 7, 9⟩ } } ⟨.plus, 31, 16, 0, 5, 25⟩ (fun t => decide (t.cell 2000 = ⟨.minus, 0, 0, 0, 7, 9⟩)) &&
      runs { at100 with rI := { zeros with i3 := ⟨.minus, 7, 9⟩ } } ⟨.plus, 31, 16, 0, 5, 27⟩ (fun t => decide (t.cell 2000 = ⟨.minus, 0, 0, 0, 7, 9⟩)) &&
      runs { at100 with rI := { zeros with i4 := ⟨.minus, 7, 9⟩ } } ⟨.plus, 31, 16, 0, 5, 28⟩ (fun t => decide (t.cell 2000 = ⟨.minus, 0, 0, 0, 7, 9⟩)) &&
      runs { at100 with rI := { zeros with i5 := ⟨.minus, 7, 9⟩ } } ⟨.plus, 31, 16, 0, 5, 29⟩ (fun t => decide (t.cell 2000 = ⟨.minus, 0, 0, 0, 7, 9⟩))) = true := by decide +kernel

theorem test_more_register_jump_a :
    (runs { at100 with rA := ⟨.minus, 0, 0, 0, 0, 1⟩ } ⟨.plus, 31, 16, 0, 4, 40⟩ (fun t => decide (t.rJ = 101 ∧ t.pc = 2000))) = true := by decide +kernel

theorem test_more_register_jump_1 :
    (runs { at100 with rI := { zeros with i1 := ⟨.minus, 0, 1⟩ } } ⟨.plus, 31, 16, 0, 0, 41⟩ (fun t => decide (t.rJ = 101 ∧ t.pc = 2000)) &&
      runs { at100 with rI := { zeros with i1 := ⟨.minus, 0, 0⟩ } } ⟨.plus, 31, 16, 0, 1, 41⟩ (fun t => decide (t.rJ = 101 ∧ t.pc = 2000)) &&
      runs { at100 with rI := { zeros with i1 := ⟨.plus, 0, 0⟩ } } ⟨.plus, 31, 16, 0, 3, 41⟩ (fun t => decide (t.rJ = 101 ∧ t.pc = 2000)) &&
      runs { at100 with rI := { zeros with i1 := ⟨.minus, 0, 1⟩ } } ⟨.plus, 31, 16, 0, 4, 41⟩ (fun t => decide (t.rJ = 101 ∧ t.pc = 2000)) &&
      runs { at100 with rI := { zeros with i1 := ⟨.minus, 0, 0⟩ } } ⟨.plus, 31, 16, 0, 5, 41⟩ (fun t => decide (t.rJ = 101 ∧ t.pc = 2000))) = true := by decide +kernel

theorem test_more_register_jump_2 :
    (runs { at100 with rI := { zeros with i2 := ⟨.minus, 0, 1⟩ } } ⟨.plus, 31, 16, 0, 0, 42⟩ (fun t => decide (t.rJ = 101 ∧ t.pc = 2000)) &&
      runs { at100 with rI := { zeros with i2 := ⟨.minus, 0, 0⟩ } } ⟨.plus, 31, 16, 0, 1, 42⟩ (fun t => decide (t.rJ = 101 ∧ t.pc = 2000)) &&
      runs { at100 with rI := { zeros with i2 := ⟨.plus, 0, 1⟩ } } ⟨.plus, 31, 16, 0, 2, 42⟩ (fun t => decide (t.rJ = 101 ∧ t.pc = 2000)) &&
      runs { at100 with rI := { zeros with i2 := ⟨.plus, 0, 0⟩ } } ⟨.plus, 31, 16, 0, 3, 42⟩ (fun t => decide (t.rJ = 101 ∧ t.pc = 2000)) &&
      runs { at100 with rI := { zeros with i2 := ⟨.minus, 0, 1⟩ } } ⟨.plus, 31, 16, 0, 4, 42⟩ (fun t => decide (t.rJ = 101 ∧ t.pc = 2000)) &&
      runs { at100 with rI := { zeros with i2 := ⟨.minus, 0, 0⟩ } } ⟨.plus, 31, 16, 0, 5, 42⟩ (fun t => decide (t.rJ = 101 ∧ t.pc = 2000))) = true := by decide +kernel

theorem test_more_register_jump_3 :
    (runs { at100 with rI := { zeros with i3 := ⟨.minus, 0, 1⟩ } } ⟨.plus, 31, 16, 0, 0, 43⟩ (fun t => decide (t.rJ = 101 ∧ t.pc = 2000)) &&
      runs { at100 with rI := { zeros with i3 := ⟨.plus, 0, 1⟩ } } ⟨.plus, 31, 16, 0, 2, 43⟩ (fun t => decide (t.rJ = 101 ∧ t.pc = 2000)) &&
      runs { at100 with rI := { zeros with i3 := ⟨.plus, 0, 0⟩ } } ⟨.plus, 31, 16, 0, 3, 43⟩ (fun t => decide (t.rJ = 101 ∧ t.pc = 2000)) &&
      runs { at100 with rI := { zeros with i3 := ⟨.minus, 0, 1⟩ } } ⟨.plus, 31, 16, 0, 4, 43⟩ (fun t => decide (t.rJ = 101 ∧ t.pc = 2000)) &&
      runs { at100 with rI := { zeros with i3 := ⟨.minus, 0, 0⟩ } } ⟨.plus, 31, 16, 0, 5, 43⟩ (fun t => decide (t.rJ = 101 ∧ t.pc = 2000))) = true := by decide +kernel

theorem test_more_register_jump_4 :
    (runs { at100 with rI := { zeros with i4 := ⟨.minus, 0, 1⟩ } } ⟨.plus, 31, 16, 0, 0, 44⟩ (fun t => decide (t.rJ = 101 ∧ t.pc = 2000)) &&
      runs { at100 with rI := { zeros with i4 := ⟨.minus, 0, 0⟩ } } ⟨.plus, 31, 16, 0, 1, 44⟩ (fun t => decide (t.rJ = 101 ∧ t.pc = 2000)) &&
      runs { at100 with rI := { zeros with i4 := ⟨.plus, 0, 1⟩ } } ⟨.plus, 31, 16, 0, 2, 44⟩ (fun t => decide (t.rJ = 101 ∧ t.pc = 2000)) &&
      runs { at100 with rI := { zeros with i4 := ⟨.minus, 0, 1⟩ } } ⟨.plus, 31, 16, 0, 4, 44⟩ (fun t => decide (t.rJ = 101 ∧ t.pc = 2000)) &&
      runs { at100 with rI := { zeros with i4 := ⟨.minus, 0, 0⟩ } } ⟨.plus, 31, 16, 0, 5, 44⟩ (fun t => decide (t.rJ = 101 ∧ t.pc = 2000))) = true := by decide +kernel

theorem test_more_register_jump_5 :
    (runs { at100 with rI := { zeros with i5 := ⟨.minus, 0, 1⟩ } } ⟨.plus, 31, 16, 0, 0, 45⟩ (fun t => decide (t.rJ = 101 ∧ t.pc = 2000)) &&
      runs { at100 with rI := { zeros with i5 := ⟨.minus, 0, 0⟩ } } ⟨.plus, 31, 16, 0, 1, 45⟩ (fun t => decide (t.rJ = 101 ∧ t.pc = 2000)) &&
      runs { at100 with rI := { zeros with i5 := ⟨.plus, 0, 1⟩ } } ⟨.plus, 31, 16, 0, 2, 45⟩ (fun t => decide (t.rJ = 101 ∧ t.pc = 2000)) &&
      runs { at100 with rI := { zeros with i5 := ⟨.plus, 0, 0⟩ } } ⟨.plus, 31, 16, 0, 3, 45⟩ (fun t => decide (t.rJ = 101 ∧ t.pc = 2000)) &&
      runs { at100 with rI := { zeros with i5 := ⟨.minus, 0, 0⟩ } } ⟨.plus, 31, 16, 0, 5, 45⟩ (fun t => decide (t.rJ = 101 ∧ t.pc = 2000))) = true := by decide +kernel

theorem test_more_register_jump_6 :
    (runs { at100 with rI := { zeros with i6 := ⟨.minus, 0, 1⟩ } } ⟨.plus, 31, 16, 0, 0, 46⟩ (fun t => decide (t.rJ = 101 ∧ t.pc = 2000)) &&
      runs { at100 with rI := { zeros with i6 := ⟨.minus, 0, 0⟩ } } ⟨.plus, 31, 16, 0, 1, 46⟩ (fun t => decide (t.rJ = 101 ∧ t.pc = 2000)) &&
      runs { at100 with rI := { zeros with i6 := ⟨.plus, 0, 1⟩ } } ⟨.plus, 31, 16, 0, 2, 46⟩ (fun t => decide (t.rJ = 101 ∧ t.pc = 2000)) &&
      runs { at100 with rI := { zeros with i6 := ⟨.plus, 0, 0⟩ } } ⟨.plus, 31, 16, 0, 3, 46⟩ (fun t => decide (t.rJ = 101 ∧ t.pc = 2000)) &&
      runs { at100 with rI := { zeros with i6 := ⟨.minus, 0, 1⟩ } } ⟨.plus, 31, 16, 0, 4, 46⟩ (fun t => decide (t.rJ = 101 ∧ t.pc = 2000))) = true := by decide +kernel

theorem test_more_register_jump_x :
    (runs { at100 with rX := ⟨.minus, 0, 0, 0, 0, 1⟩ } ⟨.plus, 31, 16, 0, 0, 47⟩ (fun t => decide (t.rJ = 101 ∧ t.pc = 2000)) &&
      runs { at100 with rX := ⟨.plus, 0, 0, 0, 0, 1⟩ } ⟨.plus, 31, 16, 0, 2, 47⟩ (fun t => decide (t.rJ = 101 ∧ t.pc = 2000)) &&
      runs { at100 with rX := ⟨.plus, 0, 0, 0, 0, 0⟩ } ⟨.plus, 31, 16, 0, 3, 47⟩ (fun t => decide (t.rJ = 101 ∧ t.pc = 2000)) &&
      runs { at100 with rX := ⟨.minus, 0, 0, 0, 0, 0⟩ } ⟨.plus, 31, 16, 0, 5, 47⟩ (fun t => decide (t.rJ = 101 ∧ t.pc = 2000))) = true := by decide +kernel

theorem test_more_transfer_dec :
    (runs { at100 with rI := { zeros with i1 := ⟨.minus, 0, 9⟩ } } ⟨.plus, 0, 5, 0, 1, 49⟩ (fun t => decide (t.rI.i1 = ⟨.minus, 0, 14⟩)) &&
      runs { at100 with rI := { zeros with i2 := ⟨.minus, 0, 9⟩ } } ⟨.plus, 0, 5, 0, 1, 50⟩ (fun t => decide (t.rI.i2 = ⟨.minus, 0, 14⟩)) &&
      runs { at100 with rI := { zeros with i3 := ⟨.minus, 0, 9⟩ } } ⟨.plus, 0, 5, 0, 1, 51⟩ (fun t => decide (t.rI.i3 = ⟨.minus, 0, 14⟩)) &&
      runs { at100 with rI := { zeros with i4 := ⟨.minus, 0, 9⟩ } } ⟨.plus, 0, 5, 0, 1, 52⟩ (fun t => decide (t.rI.i4 = ⟨.minus, 0, 14⟩)) &&
      runs { at100 with rI := { zeros with i5 := ⟨.minus, 0, 9⟩ } } ⟨.plus, 0, 5, 0, 1, 53⟩ (fun t => decide (t.rI.i5 = ⟨.minus, 0, 14⟩))) = true := by decide +kernel

theorem test_more_transfer_enn :
    (runs { at100 with rI := { zeros with i1 := ⟨.minus, 0, 9⟩ } } ⟨.plus, 0, 5, 0, 3, 49⟩ (fun t => decide (t.rI.i1 = ⟨.minus, 0, 5⟩)) &&
      runs { at100 with rI := { zeros with i2 := ⟨.minus, 0, 9⟩ } } ⟨.plus, 0, 5, 0, 3, 50⟩ (fun t => decide (t.rI.i2 = ⟨.minus, 0, 5⟩)) &&
      runs { at100 with rI := { zeros with i4 := ⟨.minus, 0, 9⟩ } } ⟨.plus, 0, 5, 0, 3, 52⟩ (fun t => decide (t.rI.i4 = ⟨.minus, 0, 5⟩)) &&
      runs { at100 with rI := { zeros with i5 := ⟨.minus, 0, 9⟩ } } ⟨.plus, 0, 5, 0, 3, 53⟩ (fun t => decide (t.rI.i5 = ⟨.minus, 0, 5⟩)) &&
      runs { at100 with rI := { zeros with i6 := ⟨.minus, 0, 9⟩ } } ⟨.plus, 0, 5, 0, 3, 54⟩ (fun t => decide (t.rI.i6 = ⟨.minus, 0, 5⟩))) = true := by decide +kernel

theorem test_more_transfer_inc :
    (runs { at100 with rI := { zeros with i3 := ⟨.minus, 0, 9⟩ } } ⟨.plus, 0, 5, 0, 0, 51⟩ (fun t => decide (t.rI.i3 = ⟨.minus, 0, 4⟩)) &&
      runs { at100 with rI := { zeros with i4 := ⟨.minus, 0, 9⟩ } } ⟨.plus, 0, 5, 0, 0, 52⟩ (fun t => decide (t.rI.i4 = ⟨.minus, 0, 4⟩)) &&
      runs { at100 with rI := { zeros with i5 := ⟨.minus, 0, 9⟩ } } ⟨.plus, 0, 5, 0, 0, 53⟩ (fun t => decide (t.rI.i5 = ⟨.minus, 0, 4⟩)) &&
      runs { at100 with rI := { zeros with i6 := ⟨.minus, 0, 9⟩ } } ⟨.plus, 0, 5, 0, 0, 54⟩ (fun t => decide (t.rI.i6 = ⟨.minus, 0, 4⟩))) = true := by decide +kernel

theorem test_more_transfer_ent :
    (runs { at100 with rI := { zeros with i4 := ⟨.minus, 0, 9⟩ } } ⟨.plus, 0, 5, 0, 2, 52⟩ (fun t => decide (t.rI.i4 = ⟨.plus, 0, 5⟩)) &&
      runs { at100 with rI := { zeros with i5 := ⟨.minus, 0, 9⟩ } } ⟨.plus, 0, 5, 0, 2, 53⟩ (fun t => decide (t.rI.i5 = ⟨.plus, 0, 5⟩)) &&
      runs { at100 with rI := { zeros with i6 := ⟨.minus, 0, 9⟩ } } ⟨.plus, 0, 5, 0, 2, 54⟩ (fun t => decide (t.rI.i6 = ⟨.plus, 0, 5⟩))) = true := by decide +kernel

theorem test_more_compare :
    (runs { at100 with rI := { zeros with i4 := ⟨.minus, 0, 5⟩ }, mem := [(1000, ⟨.minus, 0, 0, 0, 0, 4⟩)] } ⟨.plus, 15, 40, 0, 5, 60⟩ (fun t => decide (t.ci = .less)) &&
      runs { at100 with rI := { zeros with i5 := ⟨.minus, 0, 5⟩ }, mem := [(1000, ⟨.minus, 0, 0, 0, 0, 4⟩)] } ⟨.plus, 15, 40, 0, 5, 61⟩ (fun t => decide (t.ci = .less))) = true := by decide +kernel

/-- L13, T36, T43. -/
theorem test_fault_index_overflow :
    (faults { at100 with mem := [(2000, ⟨.minus, 1, 16, 3, 5, 4⟩)] } ⟨.plus, 31, 16, 0, 5, 10⟩ (.indexOverflow 100 (-20984132)) &&
      faults { at100 with rI := { zeros with i1 := ⟨.plus, 63, 63⟩ } } ⟨.plus, 0, 1, 0, 0, 49⟩ (.indexOverflow 100 4096) &&
      faults { at100 with rI := { zeros with i4 := ⟨.plus, 63, 63⟩ } } ⟨.minus, 0, 1, 0, 1, 52⟩ (.indexOverflow 100 4096)) = true := by decide +kernel

/-- L26, S27, A39, C21, J51, J53, J54, J55, M37, M38, M39. -/
theorem test_fault_memory_address :
    (faults at100 ⟨.plus, 62, 32, 0, 5, 8⟩ (.memoryAddress 100 4000) &&
      faults at100 ⟨.minus, 0, 1, 0, 5, 33⟩ (.memoryAddress 100 (-1)) &&
      faults at100 ⟨.plus, 62, 32, 0, 5, 2⟩ (.memoryAddress 100 4000) &&
      faults at100 ⟨.plus, 62, 32, 0, 5, 63⟩ (.memoryAddress 100 4000) &&
      faults { at100 with rJ := 7 } ⟨.plus, 62, 32, 0, 0, 39⟩ (.memoryAddress 100 4000) &&
      faults { at100 with rJ := 7, ci := .less } ⟨.plus, 62, 32, 0, 5, 39⟩ (.memoryAddress 100 4000) &&
      faults { at100 with rA := ⟨.plus, 0, 0, 0, 0, 1⟩, rJ := 7 } ⟨.plus, 62, 32, 0, 1, 40⟩ (.memoryAddress 100 4000) &&
      faults { at100 with rJ := 7, ov := true } ⟨.plus, 62, 32, 0, 2, 39⟩ (.memoryAddress 100 4000) &&
      faults { at100 with rI := { zeros with i1 := ⟨.minus, 0, 1⟩ } } ⟨.plus, 15, 40, 0, 1, 7⟩ (.memoryAddress 100 (-1)) &&
      faults { at100 with rI := { zeros with i1 := ⟨.plus, 31, 16⟩ } } ⟨.plus, 62, 30, 0, 3, 7⟩ (.memoryAddress 100 4000) &&
      faults { at100 with rI := { zeros with i1 := ⟨.plus, 62, 30⟩ } } ⟨.plus, 15, 40, 0, 3, 7⟩ (.memoryAddress 100 4000)) = true := by decide +kernel

/-- L29, S28, C20. -/
theorem test_fault_invalid_field :
    (faults { at100 with mem := [(2000, ⟨.minus, 1, 16, 3, 5, 4⟩)] } ⟨.plus, 31, 16, 0, 17, 8⟩ (.invalidField 100 17) &&
      faults { at100 with rA := ⟨.plus, 6, 7, 8, 9, 0⟩, mem := [(2000, ⟨.minus, 1, 2, 3, 4, 5⟩)] } ⟨.plus, 31, 16, 0, 14, 24⟩ (.invalidField 100 14) &&
      faults at100 ⟨.plus, 15, 40, 0, 6, 56⟩ (.invalidField 100 6)) = true := by decide +kernel

/-- L32. -/
theorem test_fault_invalid_index :
    (faults { at100 with mem := [(2000, ⟨.minus, 1, 16, 3, 5, 4⟩)] } ⟨.plus, 31, 16, 7, 5, 8⟩ (.invalidIndex 100 7)) = true := by decide +kernel

/-- L33, M46. -/
theorem test_fault_indexed_address_overflow :
    (faults { at100 with rI := { zeros with i1 := ⟨.plus, 63, 63⟩ } } ⟨.plus, 62, 32, 1, 5, 8⟩ (.indexedAddressOverflow 100 8095) &&
      faults { at100 with rI := { zeros with i1 := ⟨.plus, 63, 63⟩ } } ⟨.plus, 62, 32, 1, 2, 5⟩ (.indexedAddressOverflow 100 8095)) = true := by decide +kernel

/-- A36, A37. -/
theorem test_fault_floating_point_not_modelled :
    (faults { at100 with rA := ⟨.plus, 0, 0, 0, 0, 1⟩, mem := [(1000, ⟨.plus, 0, 0, 0, 0, 1⟩)] } ⟨.plus, 15, 40, 0, 6, 1⟩ (.floatingPointNotModelled 100 1) &&
      faults { at100 with rA := ⟨.plus, 0, 0, 0, 0, 1⟩, mem := [(1000, ⟨.plus, 0, 0, 0, 0, 1⟩)] } ⟨.plus, 15, 40, 0, 6, 4⟩ (.floatingPointNotModelled 100 4)) = true := by decide +kernel

/-- J57, M47. -/
theorem test_fault_illegal_instruction :
    (faults { at100 with rJ := 7 } ⟨.plus, 0, 0, 0, 6, 40⟩ (.illegalInstruction 100 40 6) &&
      faults at100 ⟨.plus, 0, 0, 0, 3, 5⟩ (.illegalInstruction 100 5 3)) = true := by decide +kernel

/-- M25, M26. -/
theorem test_fault_negative_shift :
    (faults { at100 with rA := ⟨.plus, 1, 2, 3, 4, 5⟩, rX := ⟨.minus, 6, 7, 8, 9, 10⟩ } ⟨.minus, 0, 1, 0, 0, 6⟩ (.negativeShift 100 (-1)) &&
      faults { at100 with rA := ⟨.plus, 1, 2, 3, 4, 5⟩, rX := ⟨.minus, 6, 7, 8, 9, 10⟩, rI := { zeros with i3 := ⟨.minus, 0, 2⟩ } } ⟨.plus, 0, 0, 3, 5, 6⟩ (.negativeShift 100 (-2))) = true := by decide +kernel

theorem test_M42_nop : runs at100 ⟨.plus, 0, 0, 0, 0, 0⟩ (fun t => decide (t = { at100 with pc := 101 })) = true := by decide +kernel

theorem test_M43_nop : runs at100 ⟨.minus, 63, 63, 9, 63, 0⟩ (fun t => decide (t.pc = 101)) = true := by decide +kernel

/-- The words +1, +2, ..., +n. -/
def numbers (n : Nat) : List Word := (List.range n).map fun k => ⟨.plus, 0, 0, 0, (k + 1) / 64, (k + 1) % 64⟩

/-- Cells 1000.. hold +1, +2, ..., +100. -/
def numberedCells : Memory := (List.range 100).map fun k => (1000 + k, ⟨.plus, 0, 0, 0, (k + 1) / 64, (k + 1) % 64⟩)

/-- Tape 3 holds one record, the head before it. -/
def withTape (pos : Nat) : State :=
  at100.setMedia { Media.empty with tapes := [(3, ⟨[numbers 100], pos⟩)] }

/-- As D4: the head moves, no cell changes before the transfer is complete, all do then. -/
theorem test_D4_inp_tape : runs (withTape 0) ⟨.plus, 31, 16, 0, 3, 36⟩ (fun t =>
    decide ((t.media.tape 3).pos = 1 ∧ t.busy 3 = true ∧ t.cell 2049 = ⟨.plus, 0, 0, 0, 0, 0⟩ ∧ t.pc = 101 ∧
      (t.complete 3).cell 2049 = ⟨.plus, 0, 0, 0, 0, 50⟩ ∧ (t.complete 3).cell 2099 = ⟨.plus, 0, 0, 0, 1, 36⟩ ∧
      (t.complete 3).busy 3 = false)) = true := by decide +kernel

/-- D30 with the card 1, 2, ..., 55, 0, 1, ..., 24. -/
theorem test_D30_inp_cards :
    runs (at100.setMedia { Media.empty with deck := [(List.range 80).map fun i => (i + 1) % 56] }) ⟨.plus, 7, 52, 0, 16, 36⟩ (fun t =>
      decide (t.media.nextCard = 1 ∧ t.pc = 101 ∧ (t.complete 16).cell 500 = ⟨.plus, 1, 2, 3, 4, 5⟩ ∧
        (t.complete 16).cell 515 = ⟨.plus, 20, 21, 22, 23, 24⟩)) = true := by decide +kernel

/-- As D2: the records after the head are lost. -/
theorem test_D2_out_tape : runs { withTape 0 with mem := numberedCells } ⟨.plus, 15, 40, 0, 3, 37⟩ (fun t =>
    decide (t.media.tape 3 = ⟨[numbers 100], 1⟩ ∧ t.busy 3 = true ∧ t.pc = 101)) = true := by decide +kernel

theorem test_D44_out_printer : runs { at100 with mem := [(700, ⟨.plus, 63, 63, 63, 63, 63⟩)] } ⟨.plus, 10, 60, 0, 18, 37⟩ (fun t =>
    decide (t.media.printed = [.line (List.replicate 5 63 ++ List.replicate 115 0)] ∧ t.busy 18 = true)) = true := by decide +kernel

theorem test_D11_ioc_rewind : runs (withTape 1) ⟨.plus, 0, 0, 0, 3, 35⟩ (fun t =>
    decide (t.media.tape 3 = ⟨[numbers 100], 0⟩ ∧ t.busy 3 = true ∧ t.pc = 101)) = true := by decide +kernel

theorem test_D46_ioc_page : runs at100 ⟨.plus, 0, 0, 0, 18, 35⟩ (fun t =>
    decide (t.media.printed = [.pageBreak] ∧ t.busy 18 = true ∧ t.pc = 101)) = true := by decide +kernel

/-- An IN of unit 3 owns the cells 2000 to 2099. -/
def reading : State := { withTape 1 with pending := [(3, ⟨.input 2000 (numbers 100), none, 5⟩)] }

theorem test_D55_jred : runs at100 ⟨.plus, 31, 16, 0, 16, 38⟩ (fun t => decide (t.rJ = 101 ∧ t.pc = 2000)) = true := by decide +kernel

theorem test_D56_jred : runs reading ⟨.plus, 31, 16, 0, 3, 38⟩ (fun t => decide (t.rJ = 0 ∧ t.pc = 101)) = true := by decide +kernel

theorem test_D57_jbus : runs reading ⟨.plus, 1, 36, 0, 3, 34⟩ (fun t => decide (t.rJ = 101 ∧ t.pc = 100)) = true := by decide +kernel

theorem test_D58_jbus : runs at100 ⟨.plus, 1, 36, 0, 16, 34⟩ (fun t => decide (t.rJ = 0 ∧ t.pc = 101)) = true := by decide +kernel

/-- As D76 and D78: an OUT and an IOC on a busy unit are held, and nothing changes but that time passes for the unit. -/
theorem test_D76_D78_hold :
    (runs reading ⟨.plus, 15, 40, 0, 3, 37⟩ (fun t => decide (t.pc = 100 ∧ t.media = reading.media ∧ t.busy 3 = true)) &&
      runs reading ⟨.plus, 0, 0, 0, 3, 35⟩ (fun t => decide (t.pc = 100 ∧ t.media = reading.media))) = true := by decide +kernel

/-- D79, D80, D81, D82, D84, D87, D88, D89, D90: the cells of an IN are closed to loads, stores, arithmetic, MOVE and other transfers. -/
theorem test_fault_io_hazard :
    (faults reading ⟨.plus, 32, 2, 0, 5, 8⟩ (.ioHazard 100 2050 3) && runs reading ⟨.plus, 31, 15, 0, 5, 8⟩ (fun t => decide (t.pc = 101)) &&
      runs reading ⟨.plus, 32, 52, 0, 5, 8⟩ (fun t => decide (t.pc = 101)) && faults reading ⟨.plus, 32, 51, 0, 5, 24⟩ (.ioHazard 100 2099 3) &&
      faults reading ⟨.plus, 31, 17, 0, 5, 1⟩ (.ioHazard 100 2001 3) &&
      faults { reading with rI := { zeros with i1 := ⟨.plus, 31, 15⟩ } } ⟨.plus, 15, 40, 0, 2, 7⟩ (.ioHazard 100 2000 3) &&
      faults reading ⟨.plus, 32, 2, 0, 4, 37⟩ (.ioHazard 100 2050 3) && faults reading ⟨.plus, 30, 30, 0, 4, 36⟩ (.ioHazard 100 2000 3) &&
      faults reading ⟨.plus, 32, 36, 0, 17, 37⟩ (.ioHazard 100 2084 3)) = true := by decide +kernel

/-- D6, D18, D28, D33, D36, D41, D64, D66 and D9: the faults of the units. -/
theorem test_fault_units :
    (faults (withTape 1) ⟨.plus, 31, 16, 0, 3, 36⟩ (.tapeImproper 100 3) && faults (withTape 0) ⟨.plus, 0, 3, 0, 3, 35⟩ (.tapeImproper 100 3) &&
      faults at100 ⟨.plus, 0, 1, 0, 8, 35⟩ (.ioControlUndefined 100 8 1) && faults at100 ⟨.plus, 7, 52, 0, 16, 36⟩ (.inputExhausted 100 16) &&
      faults at100 ⟨.plus, 7, 52, 0, 16, 37⟩ (.unitDirection 100 16) && faults at100 ⟨.plus, 9, 24, 0, 17, 36⟩ (.unitDirection 100 17) &&
      faults at100 ⟨.plus, 62, 32, 0, 20, 34⟩ (.invalidUnit 100 20) &&
      faults { at100 with params := { State.resetParams with installed := [0, 1] } } ⟨.plus, 31, 16, 0, 17, 38⟩ (.unitAbsent 100 17) &&
      faults (withTape 0) ⟨.plus, 60, 61, 0, 3, 36⟩ (.memoryAddress 100 4000)) = true := by decide +kernel

/-- A34 with F = 6 on the other two operators (42_arithmetic.md R165). -/
theorem test_fault_floating_sub_mul :
    (faults at100 ⟨.plus, 15, 40, 0, 6, 2⟩ (.floatingPointNotModelled 100 2) &&
      faults at100 ⟨.plus, 15, 40, 0, 6, 3⟩ (.floatingPointNotModelled 100 3)) = true := by decide +kernel

/-- A33: OV is on after a division by zero, whatever rA and rX hold. -/
theorem test_A33_div_by_zero : runs { at100 with mem := [(1000, ⟨.minus, 0, 0, 0, 0, 0⟩)] } ⟨.plus, 15, 40, 0, 5, 4⟩ (fun t =>
    decide (t.ov = true ∧ t.pc = 101)) = true := by decide +kernel

/-- The instruction put where the next step fetches is the one that runs, as the first one after reset. -/
theorem test_withFetchWord : step (State.reset.withFetchWord 32 (1 * 2 ^ 18 + 2 * 64 + 48)) =
    .next { State.reset with mem := [(0, ⟨.plus, 0, 1, 0, 2, 48⟩)], rA := ⟨.plus, 0, 0, 0, 0, 1⟩, pc := 1 } := by rfl

/-- The times of 70_reset_and_hazards.md R440: MOVE takes 1 + 2F, floating point is unspecified. -/
theorem test_instrTime :
    instrTime (.move ⟨.plus, 0, 0, 0⟩ 3) = some 7 ∧ instrTime (.mul ⟨.plus, 0, 0, 0⟩ 5) = some 10 ∧
      instrTime (.div ⟨.plus, 0, 0, 0⟩ 5) = some 12 ∧ instrTime (.fadd ⟨.plus, 0, 0, 0⟩) = none := by decide

/-! ### Witnesses: the hypotheses of the obligations can be met, clause by clause -/

/-- A machine in the midst of things: an OUT of tape 1 owns 2000 to 2099, an IN of the card reader owns 3984 to 3999, the printer turns
its page; tape 2 has a record to read, disk 8 a block, one card and one block of paper tape are left. -/
def busyState : State :=
  { State.reset with
    pc := 100
    rA := ⟨.minus, 1, 2, 3, 4, 5⟩
    rX := ⟨.plus, 0, 0, 0, 0, 3⟩
    rI := { zeros with i1 := ⟨.plus, 15, 40⟩, i6 := ⟨.minus, 63, 63⟩ }
    rJ := 4095
    mem := [(100, ⟨.plus, 0, 0, 0, 0, 39⟩), (999, ⟨.plus, 0, 0, 0, 63, 63⟩), (3000, ⟨.minus, 0, 0, 1, 0, 0⟩)]
    pending := [(1, ⟨.output 2000, none, 1⟩), (16, ⟨.input 3984 (numbers 16), none, 2⟩), (18, ⟨.control, none, 3⟩)]
    media := { Media.empty with
      tapes := [(1, ⟨[numbers 100], 1⟩), (2, ⟨[numbers 100], 0⟩)]
      disks := [(8, [(3, numbers 100)])]
      deck := [List.replicate 80 1]
      ptape := [List.replicate 70 2] } }

/-- The same with no unit busy. -/
def quietState : State := { busyState with pending := [] }

theorem busyState_inv : busyState.Inv := by
  constructor <;> decide +kernel

theorem quietState_inv : quietState.Inv := by
  constructor <;> decide +kernel

theorem witness_DecodeOfEncode : (Instr.j6np ⟨.minus, 63, 63, 63⟩).wellFormed 64 = true := by decide

theorem witness_EncodeOfDecode :
    decode ⟨.minus, 63, 63, 63, 5, 46⟩ = .ok (.j6np ⟨.minus, 63, 63, 63⟩) ∧ wordOk 64 ⟨.minus, 63, 63, 63, 5, 46⟩ := ⟨rfl, by decide⟩

theorem witness_IllegalWords : decode ⟨.plus, 0, 0, 0, 63, 55⟩ = .error (.illegal 55 63) := rfl

/-- The normal F, an F written, and a selecting F, at the largest address; a row that allows an F and one that allows none. -/
theorem witness_NotationDenotesWord :
    0 < 64 ∧ 4095 < 64 ^ 2 ∧ assemble 64 "STJ" .minus 4095 6 none = some ⟨.minus, 63, 63, 6, 2, 32⟩ ∧
      assemble 64 "STJ" .minus 4095 6 (some 0) = some ⟨.minus, 63, 63, 6, 0, 32⟩ ∧
      assemble 64 "JLE" .plus 4095 0 none = some ⟨.plus, 63, 63, 0, 9, 39⟩ ∧
      (∃ r ∈ optab, r.name = "STJ" ∧ r.sel = none ∧ r.normalF = 2 ∧ r.c = 32) ∧
      ∃ r ∈ optab, r.name = "JLE" ∧ r.sel = some 9 ∧ r.c = 39 := by decide +kernel

theorem witness_StepKeepsInvariant : busyState.Inv ∧ ∃ t, step busyState = .next t := ⟨busyState_inv, _, rfl⟩

theorem witness_StepRunsDecoded :
    busyState.due = none ∧ busyState.halted = false ∧ busyState.pc ≤ 3999 ∧ busyState.hazard false busyState.pc 1 = none ∧
      decode (busyState.cell busyState.pc) = .ok (.jmp ⟨.plus, 0, 0, 0⟩) := by
  refine ⟨?_, ?_, ?_, ?_, rfl⟩ <;> decide +kernel

theorem witness_StepOfOtherAgents :
    { busyState with pending := [(1, ⟨.output 2000, none, 1⟩), (18, ⟨.control, none, 0⟩)] }.due = some 18 ∧
      busyState.due = none ∧ { busyState with halted := true }.restarts = [] ∧
      { busyState with halted := true, restarts := [0, 4] }.restarts = 0 :: [4] ∧
      { busyState with halted := true, restarts := [4] }.restarts = (3 + 1) :: [] := by
  refine ⟨?_, ?_, rfl, rfl, rfl⟩ <;> decide +kernel

theorem witness_FetchFaults :
    busyState.due = none ∧ busyState.halted = false ∧ 3999 < { busyState with pc := 4000 }.pc ∧
      { busyState with pc := 3999 }.hazard false 3999 1 = some (3999, 16) ∧
      { quietState with pc := 3999, mem := [(3999, ⟨.plus, 0, 0, 0, 3, 5⟩)] }.hazard false 3999 1 = none ∧
      decode ({ quietState with pc := 3999, mem := [(3999, ⟨.plus, 0, 0, 0, 3, 5⟩)] }.cell 3999) = .error (.illegal 5 3) := by
  refine ⟨?_, ?_, ?_, ?_, ?_, rfl⟩ <;> decide +kernel

/-- Both ends of the blocks, from inside and from outside; the OUT forbids changes only. -/
theorem witness_HazardMeansOwned :
    busyState.hazard true 1999 1 = none ∧ busyState.hazard true 2000 1 = some (2000, 1) ∧ busyState.hazard true 2099 1 = some (2099, 1) ∧
      busyState.hazard true 2100 1 = none ∧ busyState.hazard false 2000 100 = none ∧ busyState.hazard false 3983 1 = none ∧
      busyState.hazard false 3984 1 = some (3984, 16) := by decide +kernel

theorem witness_AddressChecks :
    6 < (⟨.plus, 0, 0, 7⟩ : Addr).ix ∧ addrSum ⟨.plus, 48, 24, 1⟩ busyState = 4096 ∧
      busyState.b ^ 2 ≤ (addrSum ⟨.plus, 48, 24, 1⟩ busyState).natAbs ∧ addrOk ⟨.plus, 48, 23, 1⟩ busyState := by decide +kernel

theorem witness_IndexedAddress :
    (⟨.minus, 0, 1, 0⟩ : Addr).ix = 0 ∧ (⟨.minus, 0, 1, 6⟩ : Addr).ix = 6 ∧
      (6, Idx.i6) ∈ [(1, Idx.i1), (2, Idx.i2), (3, Idx.i3), (4, Idx.i4), (5, Idx.i5), (6, Idx.i6)] := by decide

theorem witness_OperandChecks :
    addrOk ⟨.minus, 0, 1, 0⟩ busyState ∧ fieldOk 6 = false ∧ fieldOk 46 = false ∧ fieldOk 45 = true ∧
      addrSum ⟨.minus, 0, 1, 0⟩ busyState = -1 ∧ addrOk ⟨.plus, 62, 32, 0⟩ busyState ∧ addrSum ⟨.plus, 62, 32, 0⟩ busyState = 4000 ∧
      addrOk ⟨.plus, 62, 31, 0⟩ busyState ∧ addrSum ⟨.plus, 62, 31, 0⟩ busyState = (3999 : Nat) ∧
      busyState.hazard false 3999 1 = some (3999, 16) ∧ busyState.hazard true 3999 1 = some (3999, 16) := by decide +kernel

theorem witness_LoadView : fieldOk 45 = true ∧ fieldOk 0 = true ∧ wordOk 64 ⟨.minus, 63, 63, 63, 63, 63⟩ := by decide

theorem witness_StoreView : fieldOk 19 = true ∧ 0 < 19 % 8 + 1 - max (19 / 8) 1 ∧ (1 < 19 / 8 ∨ 19 % 8 < 1) := by decide

theorem witness_LoadOfStore : fieldOk 36 = true ∧ wordOk 64 ⟨.minus, 1, 2, 3, 4, 63⟩ := by decide

/-- Cell 999 holds 4095, which an index register takes, cell 3000 holds -4096, which it does not. -/
theorem witness_LoadInstructions :
    64 ≤ busyState.b ∧ operandOk false ⟨.plus, 15, 39, 0⟩ 5 999 busyState ∧ wordOk busyState.b (busyState.cell 999) ∧
      wordMag busyState.b (loadField (busyState.cell 999) 5) < busyState.b ^ 2 ∧
      operandOk false ⟨.plus, 46, 56, 0⟩ 5 3000 busyState ∧ wordOk busyState.b (busyState.cell 3000) ∧
      busyState.b ^ 2 ≤ wordMag busyState.b (loadField (busyState.cell 3000) 5) := by decide +kernel

theorem witness_StoreInstructions :
    operandOk true ⟨.plus, 62, 15, 0⟩ 2 3983 busyState ∧ 64 ≤ busyState.b ∧ busyState.rJ < busyState.b ^ 2 := by decide +kernel

theorem witness_AdditionLaw :
    64 ≤ busyState.b ∧ wordOk busyState.b busyState.rA ∧ wordOk busyState.b busyState.rX ∧ wordOk busyState.b (busyState.cell 3000) ∧
      operandOk false ⟨.plus, 46, 56, 0⟩ 5 3000 busyState ∧ addrOk ⟨.minus, 63, 63, 0⟩ busyState := by decide +kernel

theorem witness_MultiplyProduct :
    64 ≤ busyState.b ∧ wordOk busyState.b busyState.rA ∧ wordOk busyState.b (busyState.cell 3000) ∧
      operandOk false ⟨.plus, 46, 56, 0⟩ 5 3000 busyState := by decide +kernel

theorem witness_DivideQuotient :
    64 ≤ { busyState with rA := ⟨.minus, 0, 0, 0, 63, 63⟩ }.b ∧ wordOk busyState.b busyState.rX ∧
      operandOk false ⟨.plus, 46, 56, 0⟩ 5 3000 { busyState with rA := ⟨.minus, 0, 0, 0, 63, 63⟩ } ∧
      wordMag 64 ⟨.minus, 0, 0, 0, 63, 63⟩ < wordMag 64 (loadField (busyState.cell 3000) 5) ∧
      wordOk busyState.b (busyState.cell 3000) := by decide +kernel

/-- A zero divisor, and a divisor equal to the dividend's upper half. -/
theorem witness_DivideOverflow :
    64 ≤ busyState.b ∧ operandOk false ⟨.plus, 0, 0, 0⟩ 5 0 busyState ∧ wordMag busyState.b (loadField (busyState.cell 0) 5) = 0 ∧
      operandOk false ⟨.plus, 46, 56, 0⟩ 5 3000 { busyState with rA := ⟨.plus, 0, 0, 1, 0, 0⟩ } ∧
      wordMag 64 (loadField (busyState.cell 3000) 5) ≤ wordMag 64 ⟨.plus, 0, 0, 1, 0, 0⟩ := by decide +kernel

theorem witness_FloatingPointStops :
    addrOk ⟨.plus, 15, 40, 0⟩ busyState ∧ (⟨.plus, 15, 40, 0, 6, 4⟩ : Word).b4 = 6 ∧ 1 ≤ (⟨.plus, 15, 40, 0, 6, 4⟩ : Word).b5 ∧
      (⟨.plus, 15, 40, 0, 6, 4⟩ : Word).b5 ≤ 4 := by decide +kernel

theorem witness_EnterInstructions :
    64 ≤ busyState.b ∧ addrOk ⟨.minus, 15, 40, 1⟩ busyState ∧ addrSum ⟨.minus, 15, 40, 1⟩ busyState = 0 := by decide +kernel

theorem witness_IncreaseIndex :
    64 ≤ busyState.b ∧ addrOk ⟨.plus, 48, 23, 0⟩ busyState ∧ addrOk ⟨.plus, 48, 24, 0⟩ busyState ∧
      shortVal busyState.b (busyState.index .i1) + addrSum ⟨.plus, 48, 23, 0⟩ busyState = 4095 ∧
      shortVal busyState.b (busyState.index .i1) + addrSum ⟨.plus, 48, 24, 0⟩ busyState = 4096 := by decide +kernel

theorem witness_CompareInstructions :
    operandOk false ⟨.plus, 46, 56, 0⟩ 0 3000 busyState ∧ operandOk false ⟨.plus, 46, 56, 0⟩ 45 3000 busyState := by decide +kernel

theorem witness_PlainJumps : cellOk ⟨.minus, 0, 0, 0⟩ 0 busyState ∧ cellOk ⟨.plus, 62, 31, 0⟩ 3999 busyState := by decide +kernel

theorem witness_OverflowJumps :
    cellOk ⟨.plus, 46, 55, 1⟩ 3999 busyState ∧ busyState.ov = false ∧ { busyState with ov := true }.ov = true := by decide +kernel

theorem witness_ComparisonJumps : cellOk ⟨.plus, 62, 31, 0⟩ 3999 busyState ∧ busyState.ci = .equal := by decide +kernel

theorem witness_RegisterJumps : cellOk ⟨.plus, 62, 31, 0⟩ 3999 busyState ∧ busyState.regVal .a < 0 := by decide +kernel

theorem witness_JumpTargetChecks :
    addrOk ⟨.minus, 0, 1, 0⟩ busyState ∧ addrSum ⟨.minus, 0, 1, 0⟩ busyState = -1 ∧ addrOk ⟨.plus, 62, 32, 0⟩ busyState ∧
      addrSum ⟨.plus, 62, 32, 0⟩ busyState = 4000 ∧ unitOk 19 busyState := by decide +kernel

theorem busyState_fadd : exec (.fadd ⟨.plus, 0, 0, 0⟩) busyState = .fault (.floatingPointNotModelled busyState.pc 1) :=
  (withM_pass (by decide +kernel) : floatingStop 1 ⟨.plus, 0, 0, 0⟩ busyState = _)

theorem busyState_jmp : exec (.jmp ⟨.plus, 0, 7, 0⟩) busyState = .next (busyState.jumpTo 7) :=
  (jumpWhen_pass (by decide +kernel) : jumpWhen true ⟨.plus, 0, 7, 0⟩ busyState busyState = _)

theorem witness_ComparisonIndicatorUse :
    (∃ t, exec (.jmp ⟨.plus, 0, 7, 0⟩) busyState = .next t) ∧ ∃ e, exec (.fadd ⟨.plus, 0, 0, 0⟩) busyState = .fault e :=
  ⟨⟨_, busyState_jmp⟩, ⟨_, busyState_fadd⟩⟩

theorem witness_JumpRegisterUse :
    (∃ t, exec (.jmp ⟨.plus, 0, 7, 0⟩) busyState = .next t) ∧ ∃ e, exec (.fadd ⟨.plus, 0, 0, 0⟩) busyState = .fault e :=
  ⟨⟨_, busyState_jmp⟩, ⟨_, busyState_fadd⟩⟩

/-- rA at its largest magnitude. -/
def fullState : State := { busyState with rA := ⟨.plus, 63, 63, 63, 63, 63⟩ }

theorem witness_OverflowToggleUse :
    (∃ t, exec (.inca ⟨.plus, 0, 1, 0⟩) fullState = .next t ∧ fullState.ov = false ∧ t.ov = true) ∧
      ∃ t, exec (.jnov ⟨.plus, 0, 7, 0⟩) { busyState with ov := true } = .next t ∧ t.ov = false :=
  ⟨⟨_, (withM_pass (by decide +kernel) : increase .a false ⟨.plus, 0, 1, 0⟩ fullState = _), rfl, by decide +kernel⟩,
    ⟨_, (jumpWhen_pass (c := 7) (by decide +kernel) : jumpWhen false ⟨.plus, 0, 7, 0⟩ { busyState with ov := true } busyState = _), rfl⟩⟩

theorem witness_WriterTable : exec (.hlt ⟨.plus, 0, 0, 0⟩) busyState = .next { busyState with halted := true, pc := 101 } := rfl

/-- A destination inside the source, and one that ends at the last cell. -/
theorem witness_MoveWords :
    64 ≤ busyState.b ∧ blockOk ⟨.plus, 15, 39, 0⟩ 999 63 busyState ∧ shortVal busyState.b (busyState.index .i1) = (1000 : Nat) ∧
      busyState.hazard false 999 63 = none ∧ busyState.hazard true 1000 63 = none ∧
      blockOk ⟨.plus, 62, 31, 0⟩ 3999 1 { quietState with rI := { zeros with i1 := ⟨.plus, 62, 31⟩ } } ∧
      shortVal 64 (⟨.plus, 62, 31⟩ : Short) = (3999 : Nat) ∧ 3999 + 1 ≤ 4000 := by decide +kernel

theorem witness_MoveChecks :
    addrOk ⟨.plus, 62, 31, 0⟩ busyState ∧ 4000 < addrSum ⟨.plus, 62, 31, 0⟩ busyState + (2 : Nat) ∧
      addrOk ⟨.plus, 0, 0, 0⟩ busyState ∧ addrSum ⟨.plus, 0, 0, 0⟩ busyState = (0 : Nat) ∧
      shortVal 64 (⟨.minus, 0, 1⟩ : Short) < 0 ∧ 4000 < shortVal 64 (⟨.plus, 62, 31⟩ : Short) + (2 : Nat) ∧
      addrSum ⟨.plus, 62, 15, 0⟩ busyState = (3983 : Nat) ∧ busyState.hazard false 3983 2 ≠ none ∧
      busyState.hazard true 1999 2 ≠ none := by decide +kernel

theorem witness_ZeroFillShifts :
    64 ≤ busyState.b ∧ wordOk busyState.b busyState.rA ∧ wordOk busyState.b busyState.rX ∧ addrOk ⟨.plus, 63, 63, 0⟩ busyState ∧
      addrSum ⟨.plus, 63, 63, 0⟩ busyState = (4095 : Nat) := by decide +kernel

theorem witness_CircularShifts :
    addrOk ⟨.minus, 0, 0, 0⟩ busyState ∧ addrSum ⟨.minus, 0, 0, 0⟩ busyState = (0 : Nat) ∧ addrOk ⟨.plus, 0, 13, 0⟩ busyState ∧
      addrSum ⟨.plus, 0, 13, 0⟩ busyState = (13 : Nat) := by decide +kernel

theorem witness_CircularShiftsInverse :
    addrOk ⟨.plus, 0, 3, 0⟩ busyState ∧ 0 ≤ addrSum ⟨.plus, 0, 3, 0⟩ busyState ∧
      addrOk ⟨.plus, 0, 3, 0⟩ { busyState with rA := ⟨.minus, 4, 5, 0, 0, 0⟩, rX := ⟨.plus, 0, 3, 1, 2, 3⟩, pc := 101 } ∧
      addrSum ⟨.plus, 0, 3, 0⟩ { busyState with rA := ⟨.minus, 4, 5, 0, 0, 0⟩, rX := ⟨.plus, 0, 3, 1, 2, 3⟩, pc := 101 } =
        addrSum ⟨.plus, 0, 3, 0⟩ busyState ∧
      exec (.slc ⟨.plus, 0, 3, 0⟩) busyState =
        .next { busyState with rA := ⟨.minus, 4, 5, 0, 0, 0⟩, rX := ⟨.plus, 0, 3, 1, 2, 3⟩, pc := 101 } := by
  refine ⟨?_, ?_, ?_, ?_, rfl⟩ <;> decide +kernel

theorem witness_NegativeShifts :
    addrOk ⟨.minus, 0, 1, 0⟩ busyState ∧ addrSum ⟨.minus, 0, 1, 0⟩ busyState < 0 := by decide +kernel

theorem witness_NopAndHalt : addrOk ⟨.minus, 63, 63, 0⟩ busyState := by decide +kernel

theorem witness_NumericValue : 64 ≤ busyState.b := by decide

theorem witness_NumericOfCharacters : paramsOk busyState.params ∧ wordOk busyState.b busyState.rA := by decide

/-- Tape 2 has a record to read; the block lies just below that of the OUT. -/
theorem witness_InputStarts :
    blockOk ⟨.plus, 29, 44, 0⟩ 1900 (unitSize 2) busyState ∧ unitOk 2 busyState ∧ canInput 2 = true ∧ busyState.busy 2 = false ∧
      busyState.hazard true 1900 (unitSize 2) = none ∧
      busyState.media.input 2 (busyState.rX.b4 * busyState.b + busyState.rX.b5) =
        some (numbers 100, busyState.media.setTape 2 ⟨[numbers 100], 1⟩) := by decide +kernel

/-- An OUT may share the cells of another OUT. -/
theorem witness_OutputStarts :
    blockOk ⟨.plus, 31, 16, 0⟩ 2000 (unitSize 15) busyState ∧ unitOk 15 busyState ∧ canOutput 15 = true ∧ busyState.busy 15 = false ∧
      busyState.hazard false 2000 (unitSize 15) = none := by decide +kernel

theorem witness_WordMedia :
    1 ≤ 7 ∧ (busyState.media.tape 1).pos ≤ (busyState.media.tape 1).recs.length ∧ (busyState.media.tape 2).pos = 0 ∧ 8 ≤ 8 ∧ 15 ≤ 15 := by
  decide +kernel

theorem witness_CharacterMedia :
    busyState.media.deck[busyState.media.nextCard]? = some (List.replicate 80 1) ∧
      busyState.media.ptape[busyState.media.ppos]? = some (List.replicate 70 2) := by decide +kernel

/-- The six kinds of control operation; the tape is moved forward to the end of its last record. -/
theorem witness_ControlOperations :
    addrOk ⟨.plus, 0, 0, 0⟩ quietState ∧ addrSum ⟨.plus, 0, 0, 0⟩ quietState = 0 ∧ addrOk ⟨.minus, 63, 63, 0⟩ quietState ∧
      addrSum ⟨.minus, 63, 63, 0⟩ quietState < 0 ∧ addrOk ⟨.plus, 0, 1, 0⟩ quietState ∧ 0 < addrSum ⟨.plus, 0, 1, 0⟩ quietState ∧
      (quietState.media.tape 2).pos + (addrSum ⟨.plus, 0, 1, 0⟩ quietState).natAbs ≤ (quietState.media.tape 2).recs.length ∧
      unitOk 2 quietState ∧ unitOk 8 quietState ∧ unitOk 15 quietState ∧ unitOk 18 quietState ∧ unitOk 19 quietState ∧
      quietState.busy 18 = false := by decide +kernel

theorem witness_UnitJumps :
    cellOk ⟨.plus, 62, 31, 0⟩ 3999 busyState ∧ unitOk 1 busyState ∧ busyState.busy 1 = true ∧ unitOk 0 busyState ∧
      busyState.busy 0 = false := by decide +kernel

theorem witness_UnitChecks :
    addrOk ⟨.plus, 62, 32, 0⟩ busyState ∧ 19 < 20 ∧ { busyState with params := { State.resetParams with installed := [0] } }.installed 19 = false ∧
      unitOk 17 busyState ∧ unitOk 18 busyState ∧ unitOk 16 busyState := by decide +kernel

/-- A block that starts below, one that ends past the last cell, one that ends with it; a busy unit; another unit's block. -/
theorem witness_TransferChecks :
    unitOk 2 busyState ∧ canInput 2 = true ∧ canOutput 2 = true ∧ addrOk ⟨.minus, 0, 1, 0⟩ busyState ∧
      addrSum ⟨.minus, 0, 1, 0⟩ busyState < 0 ∧ addrOk ⟨.plus, 60, 61, 0⟩ busyState ∧
      4000 < addrSum ⟨.plus, 60, 61, 0⟩ busyState + unitSize 2 ∧ addrSum ⟨.plus, 60, 60, 0⟩ busyState = (3900 : Nat) ∧
      3900 + unitSize 2 ≤ 4000 ∧ busyState.busy 2 = false ∧ busyState.hazard true 3900 (unitSize 2) ≠ none ∧
      busyState.hazard false 3900 (unitSize 2) ≠ none ∧ unitOk 1 busyState ∧ busyState.busy 1 = true := by decide +kernel

theorem witness_DeviceFaults :
    unitOk 16 busyState ∧ busyState.busy 16 = true ∧ addrOk ⟨.plus, 0, 2, 0⟩ busyState ∧ unitOk 8 busyState ∧ busyState.busy 8 = false ∧
      addrSum ⟨.plus, 0, 2, 0⟩ busyState ≠ 0 ∧ unitOk 2 busyState ∧ busyState.busy 2 = false ∧
      (busyState.media.tape 2).recs.length < (busyState.media.tape 2).pos + (addrSum ⟨.plus, 0, 2, 0⟩ busyState).natAbs ∧
      addrSum ⟨.plus, 0, 2, 0⟩ busyState = (2 : Nat) ∧ 2 + unitSize 0 ≤ 4000 ∧ busyState.hazard true 2 (unitSize 0) = none ∧
      (busyState.media.tape 0).recs.length ≤ (busyState.media.tape 0).pos ∧
      { quietState with media := Media.empty }.media.deck.length ≤ { quietState with media := Media.empty }.media.nextCard ∧
      { quietState with media := Media.empty }.media.ptape.length ≤ { quietState with media := Media.empty }.media.ppos := by
  decide +kernel

theorem witness_CompleteDelivers :
    sparseLookup busyState.pending 16 = some ⟨.input 3984 (numbers 16), none, 2⟩ ∧
      sparseLookup busyState.pending 18 = some ⟨.control, none, 3⟩ := by decide +kernel

theorem witness_CompletionOrder : busyState.Inv ∧ busyState.busy 1 = true ∧ busyState.busy 16 = true := ⟨busyState_inv, by decide +kernel, by decide +kernel⟩

theorem witness_BusyUnitBecomesReady :
    busyState.Inv ∧ sparseLookup busyState.pending 16 = some ⟨.input 3984 (numbers 16), none, 2⟩ := ⟨busyState_inv, by decide +kernel⟩

theorem witness_EndedRunStays :
    { quietState with halted := true }.ended ∧ { quietState with halted := true }.restarts = [] := by decide +kernel

/-- HLT stored by STA, and STJ into the address of a jump (R64). -/
theorem witness_StoreSeenByFetch :
    (operandOk true ⟨.plus, 62, 31, 0⟩ 5 3999 { quietState with pc := 3998, rA := ⟨.minus, 0, 0, 0, 2, 5⟩ } ∧
      { quietState with pc := 3998 }.pc + 1 = 3999 ∧ quietState.due = none ∧ quietState.halted = false ∧
      decode ⟨.minus, 0, 0, 0, 2, 5⟩ = .ok (.hlt ⟨.minus, 0, 0, 0⟩)) ∧
    operandOk true ⟨.plus, 62, 31, 0⟩ 2 3999 { quietState with pc := 3998, rJ := 2000, mem := [(3999, ⟨.minus, 1, 1, 1, 0, 39⟩)] } ∧
      storeField ⟨.minus, 1, 1, 1, 0, 39⟩ ({ quietState with rJ := 2000 }.storedWord .j) 2 = ⟨.plus, 31, 16, 1, 0, 39⟩ ∧
      decode ⟨.plus, 31, 16, 1, 0, 39⟩ = .ok (.jmp ⟨.plus, 31, 16, 1⟩) := by
  refine ⟨⟨?_, ?_, ?_, ?_, rfl⟩, ?_, ?_, rfl⟩ <;> decide +kernel

end Sys2Proof.Tests
end

/-! ### The invariant of MIX, kept by every step (O7)

One lemma for each update of the state, of a medium and of the busy units says that the update keeps its part of `State.Inv`; an
instruction is a chain of such updates, and a step is an instruction or the turn of another agent. -/

namespace Sys2Proof.Machine

variable {s t : State} {a : Addr} {f u b : Nat} {p : Params} {m m' : Media}

/-! #### Tapes, disks and character media -/

/-- The media of a MIX: the three clauses of `State.Inv` about them. -/
abbrev mediaOk (p : Params) (m : Media) : Prop :=
  tapesOk p.byteSize m.tapes ∧ disksOk p.byteSize m.disks ∧ charMediaOk p m

/-- One tape: records of 100 words, the head within them (47_input_output.md R360). -/
abbrev tapeOk (b : Nat) (t : Tape) : Prop :=
  t.pos ≤ t.recs.length ∧ ∀ r ∈ t.recs, wordsOk b 100 r

theorem tapeOk_tape (h : tapesOk b m.tapes) (u : Nat) : tapeOk b (m.tape u) := by
  rcases sparseGet_mem_or_default tapeEmpty m.tapes u with hmem | hdef
  · obtain ⟨_, _, hpos, hrecs⟩ := h.2 _ hmem
    exact ⟨hpos, hrecs⟩
  · rw [Media.tape, hdef]
    exact ⟨Nat.le_refl 0, nofun⟩

theorem tapeOk_write {t : Tape} (h : tapeOk b t) {block : Block} (hb : wordsOk b 100 block) : tapeOk b (tapeWrite t block) := by
  obtain ⟨hpos, hrecs⟩ := h
  refine ⟨?_, fun r hr => ?_⟩
  · simp [tapeWrite, hpos]
  · rcases List.mem_append.1 hr with hr | hr
    · exact hrecs r (List.mem_of_mem_take hr)
    · exact List.mem_singleton.1 hr ▸ hb

theorem tapeRead_eq_some {t t' : Tape} {block : Block} (h : tapeRead t = some (block, t')) :
    t.recs[t.pos]? = some block ∧ t' = ⟨t.recs, t.pos + 1⟩ := by
  unfold tapeRead at h
  split at h
  · cases h
    exact ⟨by assumption, rfl⟩
  · cases h

theorem tapeOk_read {t t' : Tape} {block : Block} (h : tapeOk b t) (hr : tapeRead t = some (block, t')) :
    wordsOk b 100 block ∧ tapeOk b t' := by
  obtain ⟨hget, rfl⟩ := tapeRead_eq_some hr
  obtain ⟨hlt, _⟩ := List.getElem?_eq_some_iff.1 hget
  exact ⟨h.2 _ (List.mem_of_getElem? hget), hlt, h.2⟩

theorem tapeOk_forward {t t' : Tape} {n : Nat} (h : tapeOk b t) (hf : tapeForward t n = some t') : tapeOk b t' := by
  unfold tapeForward at hf
  split at hf
  · cases hf
  · next hle =>
    cases hf
    exact ⟨Nat.not_lt.1 hle, h.2⟩

theorem mediaOk_setTape (h : mediaOk p m) (hu : u ≤ 7) {t : Tape} (ht : tapeOk p.byteSize t) : mediaOk p (m.setTape u t) := by
  obtain ⟨⟨hsorted, htapes⟩, hdisks, hchars⟩ := h
  refine ⟨⟨sparseSorted_set hsorted _ _ _, fun e he => ?_⟩, hdisks, hchars⟩
  rcases mem_sparseSet he with ⟨rfl, hne⟩ | ⟨he, _⟩
  · exact ⟨hu, hne, ht⟩
  · exact htapes e he

theorem wordsOk_blankBlock (hb : 0 < b) : wordsOk b 100 blankBlock :=
  ⟨List.length_replicate, fun _ hw => List.eq_of_mem_replicate hw ▸ wordOk_plusZero hb⟩

/-- The blocks of one disk or drum, listed or not yet written. -/
theorem diskBlocks_ok {l : List (Nat × List (Nat × Block))} (h : disksOk b l) (u : Nat) :
    sparseSorted (sparseGet [] l u) ∧ ∀ d ∈ sparseGet [] l u, d.1 < b ^ 2 ∧ d.2 ≠ blankBlock ∧ wordsOk b 100 d.2 := by
  rcases sparseGet_mem_or_default [] l u with hmem | hdef
  · obtain ⟨_, _, _, hsorted, hblocks⟩ := h.2 _ hmem
    exact ⟨hsorted, hblocks⟩
  · rw [hdef]
    exact ⟨List.Pairwise.nil, nofun⟩

theorem wordsOk_diskBlock (hb : 0 < b) (h : disksOk b m.disks) (u k : Nat) : wordsOk b 100 (m.diskBlock u k) := by
  rcases sparseGet_mem_or_default blankBlock (sparseGet [] m.disks u) k with hmem | hdef
  · exact ((diskBlocks_ok h u).2 _ hmem).2.2
  · rw [Media.diskBlock, hdef]
    exact wordsOk_blankBlock hb

theorem mediaOk_setDiskBlock (h : mediaOk p m) (hlo : 8 ≤ u) (hhi : u ≤ 15) {k : Nat} (hk : k < p.byteSize ^ 2) {block : Block}
    (hblock : wordsOk p.byteSize 100 block) : mediaOk p (m.setDiskBlock u k block) := by
  obtain ⟨htapes, hdisks, hchars⟩ := h
  obtain ⟨hsorted, hblocks⟩ := diskBlocks_ok hdisks u
  refine ⟨htapes, ⟨sparseSorted_set hdisks.1 _ _ _, fun e he => ?_⟩, hchars⟩
  rcases mem_sparseSet he with ⟨rfl, hne⟩ | ⟨he, _⟩
  · refine ⟨hlo, hhi, hne, sparseSorted_set hsorted _ _ _, fun d hd => ?_⟩
    rcases mem_sparseSet hd with ⟨rfl, hblank⟩ | ⟨hd, _⟩
    · exact ⟨hk, hblank, hblock⟩
    · exact hblocks d hd
  · exact hdisks.2 e he

/-- A code that an input unit delivers is a byte on every MIX (47_input_output.md R357): the codes end at 55, and `b` is at least 64. -/
theorem delivers_lt_byteSize {x : Nat} (hb : 64 ≤ p.byteSize) (h : p.delivers u x = true) : x < p.byteSize := by
  simp only [Params.delivers, Config.charDefined, Bool.and_eq_true, decide_eq_true_eq] at h
  exact lt_of_lt_of_le h.1 (le_trans (by decide) hb)

theorem wordsOk_blockOfChars (hb : 0 < b) (n : Nat) {cs : List Nat} (h : ∀ x ∈ cs, x < b) : wordsOk b n (blockOfChars n cs) := by
  refine ⟨by simp [blockOfChars], fun w hw => ?_⟩
  obtain ⟨k, _, rfl⟩ := List.mem_map.1 hw
  exact wordOk_ofBytes hb _ fun x hx => h x (List.mem_of_mem_drop hx)

theorem sign_of_mem_blockOfChars {n : Nat} {cs : List Nat} {w : Word} (hw : w ∈ blockOfChars n cs) : w.sign = .plus := by
  obtain ⟨k, _, rfl⟩ := List.mem_map.1 hw
  rfl

theorem length_charsOfBlock (l : List Word) : (charsOfBlock l).length = 5 * l.length := by
  induction l with
  | nil => rfl
  | cons w l ih =>
    rw [charsOfBlock, List.flatMap_cons, List.length_append, ← charsOfBlock, ih, List.length_cons]
    simp only [wordBytes, List.length_cons, List.length_nil]
    omega

theorem charsOk_charsOfBlock {n : Nat} {l : List Word} (h : wordsOk b n l) : charsOk b (5 * n) (charsOfBlock l) := by
  refine ⟨by rw [length_charsOfBlock, h.1], fun c hc => ?_⟩
  obtain ⟨w, hw, hc⟩ := List.mem_flatMap.1 hc
  exact wordBytes_lt (h.2 w hw) c hc

/-! #### What a unit takes from its medium and sends to it -/

/-- IN takes a block of the unit's size from the medium, with signs + on a character unit, and leaves a medium of a MIX. -/
theorem mediaOk_input (hp : paramsOk p) (h : mediaOk p m) {k : Nat} {words : List Word}
    (hi : m.input u k = some (words, m')) :
    mediaOk p m' ∧ wordsOk p.byteSize (unitSize u) words ∧ (16 ≤ u → ∀ w ∈ words, w.sign = .plus) := by
  obtain ⟨hb, -⟩ := hp
  have hpos : 0 < p.byteSize := by omega
  have ⟨htapes, hdisks, hdeck, hnext, hpunched, hprinted, hptape, hppos, htyped⟩ := h
  unfold Media.input at hi
  split_ifs at hi with htape hdisk hcard
  · split at hi
    · next hread =>
      cases hi
      obtain ⟨hwords, htape'⟩ := tapeOk_read (tapeOk_tape htapes u) hread
      exact ⟨mediaOk_setTape h htape htape', by rwa [unitSize, if_pos (by omega)], by omega⟩
    · cases hi
  · cases hi
    exact ⟨h, by rw [unitSize, if_pos hdisk]; exact wordsOk_diskBlock hpos hdisks u k, by omega⟩
  · split at hi
    · next card hget =>
      cases hi
      obtain ⟨hlt, _⟩ := List.getElem?_eq_some_iff.1 hget
      have hcodes := (hdeck card (List.mem_of_getElem? hget)).2
      exact ⟨⟨htapes, hdisks, hdeck, hlt, hpunched, hprinted, hptape, hppos, htyped⟩,
        wordsOk_blockOfChars hpos _ fun x hx => delivers_lt_byteSize hb (hcodes x hx), fun _ _ => sign_of_mem_blockOfChars⟩
    · cases hi
  · split at hi
    · next cs hget =>
      cases hi
      obtain ⟨hlt, _⟩ := List.getElem?_eq_some_iff.1 hget
      have hcodes := (hptape cs (List.mem_of_getElem? hget)).2
      exact ⟨⟨htapes, hdisks, hdeck, hnext, hpunched, hprinted, hptape, hlt, htyped⟩,
        wordsOk_blockOfChars hpos _ fun x hx => delivers_lt_byteSize hb (hcodes x hx), fun _ _ => sign_of_mem_blockOfChars⟩
    · cases hi

/-- OUT sends a block of the unit's size to the medium, which stays the medium of a MIX. -/
theorem mediaOk_output (h : mediaOk p m) (hlast : u ≤ 19) (hu : canOutput u = true) {k : Nat} (hk : k < p.byteSize ^ 2)
    {block : List Word} (hblock : wordsOk p.byteSize (unitSize u) block) : mediaOk p (m.output u k block) := by
  have ⟨htapes, hdisks, hdeck, hnext, hpunched, hprinted, hptape, hppos, htyped⟩ := h
  have hchars := charsOk_charsOfBlock hblock
  unfold Media.output
  split_ifs with htape hdisk hpunch hprint
  · rw [unitSize, if_pos (by omega)] at hblock
    exact mediaOk_setTape h htape (tapeOk_write (tapeOk_tape htapes u) hblock)
  · rw [unitSize, if_pos hdisk] at hblock
    exact mediaOk_setDiskBlock h (by omega) hdisk hk hblock
  · subst hpunch
    refine ⟨htapes, hdisks, hdeck, hnext, fun c hc => ?_, hprinted, hptape, hppos, htyped⟩
    rcases List.mem_append.1 hc with hc | hc
    · exact hpunched c hc
    · exact List.mem_singleton.1 hc ▸ hchars
  · subst hprint
    refine ⟨htapes, hdisks, hdeck, hnext, hpunched, fun l hl => ?_, hptape, hppos, htyped⟩
    rcases List.mem_append.1 hl with hl | hl
    · exact hprinted l hl
    · exact List.mem_singleton.1 hl ▸ decide_eq_true hchars
  · have hunit : u = 19 := by
      simp only [canOutput, Bool.or_eq_true, Bool.and_eq_true, decide_eq_true_eq] at hu
      omega
    subst hunit
    refine ⟨htapes, hdisks, hdeck, hnext, hpunched, hprinted, hptape, hppos, fun c hc => ?_⟩
    rcases List.mem_append.1 hc with hc | hc
    · exact htyped c hc
    · exact List.mem_singleton.1 hc ▸ hchars

/-- A control operation leaves a medium of a MIX, and no card unit has one (47_input_output.md R366). -/
theorem mediaOk_control (h : mediaOk s.params s.media) {n : Int} (hc : controlMedia u n s = some m') :
    mediaOk s.params m' ∧ u ≠ 16 ∧ u ≠ 17 := by
  have ⟨htapes, hdisks, hdeck, hnext, hpunched, hprinted, hptape, hppos, htyped⟩ := h
  have htape := tapeOk_tape htapes u
  unfold controlMedia at hc
  split_ifs at hc with h7 hzero hneg hnone hdisk hprinter
  · cases hc
    exact ⟨mediaOk_setTape h h7 ⟨Nat.zero_le _, htape.2⟩, by omega, by omega⟩
  · cases hc
    exact ⟨mediaOk_setTape h h7 ⟨le_trans (Nat.sub_le _ _) htape.1, htape.2⟩, by omega, by omega⟩
  · obtain ⟨t, hf, rfl⟩ := Option.map_eq_some_iff.1 hc
    exact ⟨mediaOk_setTape h h7 (tapeOk_forward htape hf), by omega, by omega⟩
  · cases hc
    exact ⟨h, by omega, by omega⟩
  · cases hc
    refine ⟨⟨htapes, hdisks, hdeck, hnext, hpunched, fun l hl => ?_, hptape, hppos, htyped⟩, by omega, by omega⟩
    rcases List.mem_append.1 hl with hl | hl
    · exact hprinted l hl
    · exact List.mem_singleton.1 hl ▸ rfl
  · cases hc
    exact ⟨⟨htapes, hdisks, hdeck, hnext, hpunched, hprinted, hptape, Nat.zero_le _, htyped⟩, by omega, by omega⟩

/-! #### The busy units -/

/-- An operation owns its block against reading only if it owns it against changing too. -/
theorem Operation.owns_true_of_false {op : Operation} {lo : Nat} (h : op.owns false = some lo) : op.owns true = some lo := by
  cases op with
  | input start words => exact h
  | output start => cases h
  | control => cases h

/-- Two operations are apart when the block that the first owns against reading misses every block that the second owns. -/
theorem apart_iff {e d : Nat × Pending} :
    apart e d = true ↔ ∀ lo other, e.2.op.owns false = some lo → d.2.op.owns true = some other →
      lo + unitSize e.1 ≤ other ∨ other + unitSize d.1 ≤ lo := by
  unfold apart
  cases e.2.op with
  | input start words => cases d.2.op.owns true <;> simp [Operation.owns]
  | output start => simp [Operation.owns]
  | control => simp [Operation.owns]

/-- Cells that nobody owns against changing are owned by nobody against reading. -/
theorem hazard_false_of_true {lo n : Nat} (h : s.hazard true lo n = none) : s.hazard false lo n = none :=
  hazard_none.2 fun e he start ho => hazard_none.1 h e he start (Operation.owns_true_of_false ho)

/-- The check on the block of a new operation: what it owns against reading is free for changing, and what it owns against changing is
free for reading (47_input_output.md R372). -/
def State.blockFree (s : State) (u : Nat) (op : Operation) : Prop :=
  (∀ lo, op.owns false = some lo → s.hazard true lo (unitSize u) = none) ∧
    ∀ lo, op.owns true = some lo → s.hazard false lo (unitSize u) = none

theorem blockFree_input {lo : Nat} {words : List Word} (h : s.hazard true lo (unitSize u) = none) :
    s.blockFree u (.input lo words) := by
  constructor
  · rintro _ ⟨⟩
    exact h
  · rintro _ ⟨⟩
    exact hazard_false_of_true h

theorem blockFree_output {lo : Nat} (h : s.hazard false lo (unitSize u) = none) : s.blockFree u (.output lo) := by
  constructor
  · rintro _ ⟨⟩
  · rintro _ ⟨⟩
    exact h

theorem blockFree_control : s.blockFree u .control := ⟨nofun, nofun⟩

/-- A new operation that passed the check is apart, both ways, from every operation in progress. -/
theorem apart_of_blockFree {q : Pending} (h : s.blockFree u q.op) {d : Nat × Pending} (hd : d ∈ s.pending) :
    apart (u, q) d = true ∧ apart d (u, q) = true := by
  obtain ⟨hread, hchange⟩ := h
  refine ⟨apart_iff.2 fun lo other he ho => ?_, apart_iff.2 fun other lo ho he => ?_⟩
  · exact hazard_none.1 (hread lo he) d hd other ho
  · exact (hazard_none.1 (hchange lo he) d hd other ho).symm

theorem pendingOk_insert {l : List (Nat × Pending)} (h : pendingOk p l) {q : Pending} (hu : u ≤ 19)
    (hi : p.installed.contains u = true) (hop : operationOk p.byteSize u q.op = true)
    (hsel : selectionOk p.byteSize u q.block = true) (hapart : ∀ d ∈ l, apart (u, q) d = true ∧ apart d (u, q) = true) :
    pendingOk p (sparseInsert l u q) := by
  obtain ⟨hsorted, hunits, hpairs⟩ := h
  refine ⟨sparseSorted_insert hsorted u q, fun e he => ?_, fun e he d hd => ?_⟩
  · rcases mem_sparseInsert.1 he with rfl | ⟨he, _⟩
    · exact ⟨hu, hi, hop, hsel⟩
    · exact hunits e he
  · rcases mem_sparseInsert.1 he with rfl | ⟨he, _⟩ <;> rcases mem_sparseInsert.1 hd with rfl | ⟨hd, _⟩
    · exact .inl rfl
    · exact .inr (hapart d hd).1
    · exact .inr (hapart e he).2
    · exact hpairs e he d hd

theorem pendingOk_erase {l : List (Nat × Pending)} (h : pendingOk p l) (u : Nat) : pendingOk p (sparseErase l u) := by
  obtain ⟨hsorted, hunits, hpairs⟩ := h
  exact ⟨sparseSorted_erase hsorted u, fun e he => hunits e (mem_sparseErase.1 he).1,
    fun e he d hd => hpairs e (mem_sparseErase.1 he).1 d (mem_sparseErase.1 hd).1⟩

/-- The waits of the units are no part of the invariant. -/
theorem pendingOk_setWaits {l : List (Nat × Pending)} (h : pendingOk p l) (wait : Pending → Nat) :
    pendingOk p (l.map fun e => (e.1, ⟨e.2.op, e.2.block, wait e.2⟩)) := by
  obtain ⟨hsorted, hunits, hpairs⟩ := h
  simp only [pendingOk, sparseSorted, List.pairwise_map, List.forall_mem_map]
  exact ⟨hsorted, hunits, hpairs⟩

theorem operationOk_input {lo : Nat} {words : List Word} (hu : canInput u = true) (hlo : lo + unitSize u ≤ 4000)
    (hwords : wordsOk b (unitSize u) words) (hsign : 16 ≤ u → ∀ w ∈ words, w.sign = .plus) :
    operationOk b u (.input lo words) = true :=
  decide_eq_true ⟨hu, hlo, hwords, hsign⟩

theorem operationOk_output {lo : Nat} (hu : canOutput u = true) (hlo : lo + unitSize u ≤ 4000) :
    operationOk b u (.output lo) = true :=
  decide_eq_true ⟨hu, hlo⟩

theorem operationOk_control (hu : u ≠ 16 ∧ u ≠ 17) : operationOk b u .control = true :=
  decide_eq_true hu

/-- What an operation delivers at its end leaves a memory of a MIX. -/
theorem memoryOk_deliver {op : Operation} {mem : Memory} (h : memoryOk b mem) (hop : operationOk b u op = true) :
    memoryOk b (op.deliver mem) := by
  cases op with
  | input start words =>
    obtain ⟨_, hblock, ⟨hlen, hwords⟩, _⟩ := of_decide_eq_true hop
    exact memoryOk_writeBlock h (hlen ▸ hblock) hwords
  | output start => exact h
  | control => exact h

/-! #### What an instruction computes, and where it leaves the location counter -/

@[simp] theorem putRegister_pc (r : Reg) (w : Word) (s : State) : (putRegister r w s).pc = s.pc := by
  cases r <;> rfl

@[simp] theorem enterReg_pc (r : Reg) (sign : Sign) (n : Nat) (s : State) : (enterReg r sign n s).pc = s.pc := by
  cases r <;> rfl

@[simp] theorem arithResult_pc (k : ArithKind) (v : Word) (s : State) : (arithResult k v s).pc = s.pc := by
  obtain ⟨_, _, _, _, he, _⟩ := arithResult_frame k v s
  rw [he]

@[simp] theorem shiftResult_pc (k : ShiftKind) (n : Nat) (s : State) : (shiftResult k n s).pc = s.pc := by
  cases k <;> rfl

@[simp] theorem toNumeric_pc (s : State) : (toNumeric s).pc = s.pc := by
  obtain ⟨_, _, _, he⟩ := toNumeric_frame s
  rw [he]

theorem wordOk_addResult (hb : 0 < b) (w : Word) (v : Int) : wordOk b (addResult b w v) := by
  unfold addResult
  dsimp only
  split_ifs <;> exact wordOk_ofMag hb _ _

/-- An operation on byte lists that makes no new bytes but zeros. -/
def KeepsBytes (op : List Nat → List Nat) : Prop := ∀ l, ∀ x ∈ op l, x = 0 ∨ x ∈ l

theorem keepsBytes_shiftLeft (k : Nat) : KeepsBytes (shiftLeft k) := fun l x hx => by
  rcases List.mem_append.1 hx with hx | hx
  · exact .inr (List.mem_of_mem_drop hx)
  · exact .inl (List.eq_of_mem_replicate hx)

theorem keepsBytes_shiftRight (k : Nat) : KeepsBytes (shiftRight k) := fun l x hx => by
  rcases List.mem_append.1 hx with hx | hx
  · exact .inl (List.eq_of_mem_replicate hx)
  · exact .inr (List.mem_of_mem_take hx)

theorem keepsBytes_circulateLeft (k : Nat) : KeepsBytes (circulateLeft k) := fun l x hx => by
  rcases List.mem_append.1 hx with hx | hx
  · exact .inr (List.mem_of_mem_drop hx)
  · exact .inr (List.mem_of_mem_take hx)

theorem keepsBytes_circulateRight (k : Nat) : KeepsBytes (circulateRight k) := fun l x hx => by
  rcases List.mem_append.1 hx with hx | hx
  · exact .inr (List.mem_of_mem_drop hx)
  · exact .inr (List.mem_of_mem_take hx)

theorem KeepsBytes.lt {op : List Nat → List Nat} (hop : KeepsBytes op) (hb : 0 < b) {l : List Nat} (hl : ∀ x ∈ l, x < b) :
    ∀ x ∈ op l, x < b := fun x hx => (hop l x hx).elim (fun h0 => h0 ▸ hb) (hl x)

/-! #### The updates of the state -/

namespace State.Inv

theorem b_pos (h : s.Inv) : 0 < s.b := lt_of_lt_of_le (by decide) h.params.1

/-- Every location and cell number is a number of two bytes (10_state.md R24). -/
theorem le_sq_of_le_4000 (h : s.Inv) {n : Nat} (hn : n ≤ 4000) : n < s.b ^ 2 :=
  calc n < 64 ^ 2 := by omega
    _ ≤ s.b ^ 2 := Nat.pow_le_pow_left h.params.1 2

theorem media (h : s.Inv) : mediaOk s.params s.media := ⟨h.tapes, h.disks, h.chars⟩

theorem rA (h : s.Inv) : wordOk s.b s.rA := h.registers.1

theorem rX (h : s.Inv) : wordOk s.b s.rX := h.registers.2.1

theorem index (h : s.Inv) (n : Idx) : shortOk s.b (s.index n) := by
  obtain ⟨_, _, h1, h2, h3, h4, h5, h6, _⟩ := h.registers
  cases n <;> assumption

theorem cell (h : s.Inv) (n : Nat) : wordOk s.b (s.cell n) := memoryOk_read h.b_pos h.memory n

theorem regWord (h : s.Inv) (r : Reg) : wordOk s.b (s.regWord r) := by
  cases r with
  | a => exact h.rA
  | x => exact h.rX
  | i n => exact wordOk_shortAsWord h.b_pos (h.index n)

theorem storedWord (h : s.Inv) (r : StoreSource) : wordOk s.b (s.storedWord r) := by
  cases r with
  | reg r => exact h.regWord r
  | j => exact wordOk_shortAsWord h.b_pos (shortOk_ofMag h.b_pos _ _)
  | zero => exact wordOk_plusZero h.b_pos

/-- The block number that rX selects is one of the `b^2` of a disk (47_input_output.md R358). -/
theorem diskSelect_lt (h : s.Inv) : diskSelect s.b s.rX < s.b ^ 2 := by
  obtain ⟨_, _, _, h4, h5⟩ := h.rX
  exact shortMag_lt (h := ⟨.plus, s.rX.b4, s.rX.b5⟩) h4 h5

theorem setA (h : s.Inv) {w : Word} (hw : wordOk s.b w) : (s.setA w).Inv :=
  { h with registers := ⟨hw, h.registers.2⟩ }

theorem setX (h : s.Inv) {w : Word} (hw : wordOk s.b w) : (s.setX w).Inv :=
  { h with registers := ⟨h.rA, hw, h.registers.2.2⟩ }

theorem setIndex (h : s.Inv) (n : Idx) {v : Short} (hv : shortOk s.b v) : (s.setIndex n v).Inv := by
  obtain ⟨hA, hX, h1, h2, h3, h4, h5, h6, hJ⟩ := h.registers
  refine { h with registers := ?_ }
  cases n with
  | i1 => exact ⟨hA, hX, hv, h2, h3, h4, h5, h6, hJ⟩
  | i2 => exact ⟨hA, hX, h1, hv, h3, h4, h5, h6, hJ⟩
  | i3 => exact ⟨hA, hX, h1, h2, hv, h4, h5, h6, hJ⟩
  | i4 => exact ⟨hA, hX, h1, h2, h3, hv, h5, h6, hJ⟩
  | i5 => exact ⟨hA, hX, h1, h2, h3, h4, hv, h6, hJ⟩
  | i6 => exact ⟨hA, hX, h1, h2, h3, h4, h5, hv, hJ⟩

theorem setJ (h : s.Inv) {n : Nat} (hn : n < s.b ^ 2) : (s.setJ n).Inv := by
  obtain ⟨hA, hX, h1, h2, h3, h4, h5, h6, _⟩ := h.registers
  exact { h with registers := ⟨hA, hX, h1, h2, h3, h4, h5, h6, hn⟩ }

theorem setOv (h : s.Inv) (v : Bool) : (s.setOv v).Inv := { h with }

theorem raiseOv (h : s.Inv) (v : Bool) : (s.raiseOv v).Inv := h.setOv _

theorem setCi (h : s.Inv) (c : Comparison) : (s.setCi c).Inv := { h with }

theorem setHalted (h : s.Inv) (v : Bool) : (s.setHalted v).Inv := { h with }

theorem setRestarts (h : s.Inv) (r : List Nat) : (s.setRestarts r).Inv := { h with }

theorem setDraws (h : s.Inv) (n : Nat) : (s.setDraws n).Inv := { h with }

theorem setPc (h : s.Inv) {n : Nat} (hn : n ≤ 4000) : (s.setPc n).Inv := { h with location := hn }

theorem advance (h : s.Inv) (hp : s.pc ≤ 3999) : s.advance.Inv := h.setPc (Nat.succ_le_succ hp)

theorem jumpTo (h : s.Inv) (hp : s.pc ≤ 3999) {n : Nat} (hn : n ≤ 3999) : (s.jumpTo n).Inv :=
  (h.setJ (h.le_sq_of_le_4000 (Nat.succ_le_succ hp))).setPc (Nat.le_succ_of_le hn)

theorem setMem (h : s.Inv) {l : Memory} (hl : memoryOk s.b l) : (s.setMem l).Inv := { h with memory := hl }

theorem setCell (h : s.Inv) {n : Nat} (hn : n ≤ 3999) {w : Word} (hw : wordOk s.b w) : (s.setCell n w).Inv :=
  h.setMem (memoryOk_write h.memory (Nat.lt_succ_of_le hn) hw)

theorem setMedia (h : s.Inv) (hm : mediaOk s.params m) : (s.setMedia m).Inv :=
  { h with tapes := hm.1, disks := hm.2.1, chars := hm.2.2 }

theorem setPending (h : s.Inv) {l : List (Nat × Pending)} (hl : pendingOk s.params l) : (s.setPending l).Inv :=
  { h with units := hl }

theorem selection (h : s.Inv) (u : Nat) : selectionOk s.b u (s.diskBlock u) = true := by
  unfold State.diskBlock
  split
  · next hu => exact decide_eq_true ⟨hu.1, hu.2, h.diskSelect_lt⟩
  · next hu => exact decide_eq_true (by omega)

/-- A legal operation whose block passed the check may be started. -/
theorem start (h : s.Inv) {op : Operation} (hu : unitOk u s) (hop : operationOk s.b u op = true) (hfree : s.blockFree u op) :
    (s.start u op).Inv :=
  (h.setPending (pendingOk_insert (q := ⟨op, s.diskBlock u, Config.transferDelay s.draws⟩) h.units hu.1 hu.2 hop (h.selection u)
    fun _ hd => apart_of_blockFree hfree hd)).setDraws _

/-! #### The instructions -/

theorem putRegister (h : s.Inv) (r : Reg) {w : Word} (hw : wordOk s.b w) : (putRegister r w s).Inv := by
  cases r with
  | a => exact h.setA hw
  | x => exact h.setX hw
  | i n => exact h.setIndex n (shortOk_ofMag h.b_pos _ _)

theorem enterReg (h : s.Inv) (r : Reg) (sign : Sign) (n : Nat) : (enterReg r sign n s).Inv := by
  cases r with
  | a => exact h.setA (wordOk_ofMag h.b_pos _ _)
  | x => exact h.setX (wordOk_ofMag h.b_pos _ _)
  | i k => exact h.setIndex k (shortOk_ofMag h.b_pos _ _)

theorem addToA (h : s.Inv) (v : Int) : (addToA v s).Inv := (h.setA (wordOk_addResult h.b_pos _ _)).raiseOv _

theorem addToX (h : s.Inv) (v : Int) : (addToX v s).Inv := (h.setX (wordOk_addResult h.b_pos _ _)).raiseOv _

theorem multiply (h : s.Inv) (v : Word) : (multiply v s).Inv :=
  (h.setA (wordOk_ofMag h.b_pos _ _)).setX (wordOk_ofMag h.b_pos _ _)

theorem divide (h : s.Inv) (v : Word) : (divide v s).Inv := by
  unfold Machine.divide
  split
  · exact (((h.setA (wordOk_freeWord s 0 h.b_pos)).setX (wordOk_freeWord s 1 h.b_pos)).setDraws _).setOv _
  · exact (h.setA (wordOk_ofMag h.b_pos _ _)).setX (wordOk_ofMag h.b_pos _ _)

theorem arithResult (h : s.Inv) (k : ArithKind) (v : Word) : (arithResult k v s).Inv := by
  cases k with
  | add => exact h.addToA _
  | sub => exact h.addToA _
  | mul => exact h.multiply v
  | div => exact h.divide v

theorem shiftA (h : s.Inv) {op : List Nat → List Nat} (hop : KeepsBytes op) : (shiftA op s).Inv :=
  h.setA (wordOk_ofBytes h.b_pos _ (hop.lt h.b_pos (wordBytes_lt h.rA)))

theorem shiftAX (h : s.Inv) {op : List Nat → List Nat} (hop : KeepsBytes op) : (shiftAX op s).Inv := by
  have hbytes : ∀ x ∈ op (wordBytes s.rA ++ wordBytes s.rX), x < s.b :=
    hop.lt h.b_pos (List.forall_mem_append.2 ⟨wordBytes_lt h.rA, wordBytes_lt h.rX⟩)
  exact (h.setA (wordOk_ofBytes h.b_pos _ hbytes)).setX
    (wordOk_ofBytes h.b_pos _ fun x hx => hbytes x (List.mem_of_mem_drop hx))

theorem shiftResult (h : s.Inv) (k : ShiftKind) (n : Nat) : (shiftResult k n s).Inv := by
  cases k with
  | sla => exact h.shiftA (keepsBytes_shiftLeft n)
  | sra => exact h.shiftA (keepsBytes_shiftRight n)
  | slax => exact h.shiftAX (keepsBytes_shiftLeft n)
  | srax => exact h.shiftAX (keepsBytes_shiftRight n)
  | slc => exact h.shiftAX (keepsBytes_circulateLeft n)
  | src => exact h.shiftAX (keepsBytes_circulateRight n)

theorem toNumeric (h : s.Inv) : (toNumeric s).Inv := by
  have hA : (s.setA (wordOfMag s.b s.rA.sign (digitsValue (wordBytes s.rA ++ wordBytes s.rX) % wordSize s.b))).Inv :=
    h.setA (wordOk_ofMag h.b_pos _ _)
  unfold Machine.toNumeric
  dsimp only
  split
  · exact hA
  · exact (hA.setOv _).setDraws _

/-- The ten digit codes are bytes (48_conversion.md R391). -/
theorem digitCodes_lt (h : s.Inv) (n : Nat) : ∀ x ∈ digitCodes s.params.digit0 n, x < s.b := by
  intro x hx
  obtain ⟨j, _, rfl⟩ := List.mem_map.1 hx
  obtain ⟨_, _, _, hdigits⟩ := h.params
  have hdigit : n / 10 ^ j % 10 < 10 := Nat.mod_lt _ (by decide)
  exact lt_of_le_of_lt (by omega) hdigits

theorem toChars (h : s.Inv) : (toChars s).Inv :=
  (h.setA (wordOk_ofBytes h.b_pos _ (h.digitCodes_lt _))).setX
    (wordOk_ofBytes h.b_pos _ fun x hx => h.digitCodes_lt _ x (List.mem_of_mem_drop hx))

theorem increase (h : s.Inv) (hp : s.pc ≤ 3999) {r : Reg} {neg : Bool} (hx : increase r neg a s = .next t) : t.Inv := by
  obtain ⟨_, ⟨_, rfl⟩ | ⟨_, rfl⟩ | ⟨n, _, hn⟩⟩ := increase_next.1 hx
  · exact (h.addToA _).advance hp
  · exact (h.addToX _).advance hp
  · obtain ⟨_, rfl⟩ := addToIndex_next.1 hn
    exact (h.setIndex n (shortOk_ofMag h.b_pos _ _)).advance hp

theorem ite_jumpTo (h : s.Inv) (hp : s.pc ≤ 3999) {c : Nat} (hc : c ≤ 3999) (taken : Bool) :
    (if taken then s.jumpTo c else s.advance).Inv := by
  split
  · exact h.jumpTo hp hc
  · exact h.advance hp

theorem jumpWhen {v : State} (h : v.Inv) (hp : v.pc ≤ 3999) {taken : Bool} (hx : jumpWhen taken a s v = .next t) : t.Inv := by
  obtain ⟨c, ⟨_, _, hc⟩, rfl⟩ := jumpWhen_next.1 hx
  exact h.ite_jumpTo hp hc taken

theorem move (h : s.Inv) (hp : s.pc ≤ 3999) (hx : execMove a f s = .next t) : t.Inv := by
  obtain ⟨_, ⟨_, rfl⟩ | ⟨src, dst, _, _, _, hdst, _, _, rfl⟩⟩ := execMove_next.1 hx
  · exact h.advance hp
  · exact ((h.setMem (memoryOk_moveWords h.b_pos h.memory hdst)).setIndex .i1 (shortOk_ofMag h.b_pos _ _)).advance hp

theorem inp (h : s.Inv) (hp : s.pc ≤ 3999) (hx : execInp a f s = .next t) : t.Inv := by
  obtain ⟨lo, ⟨_, _, hlo⟩, hu, hdir, ⟨_, rfl⟩ | ⟨_, hfree, words, media, hinput, rfl⟩⟩ := execInp_next.1 hx
  · exact h
  · obtain ⟨hmedia, hwords, hsign⟩ := mediaOk_input h.params h.media hinput
    exact ((h.setMedia hmedia).start hu (operationOk_input hdir hlo hwords hsign) (blockFree_input hfree)).advance hp

theorem out (h : s.Inv) (hp : s.pc ≤ 3999) (hx : execOut a f s = .next t) : t.Inv := by
  obtain ⟨lo, ⟨_, _, hlo⟩, hu, hdir, ⟨_, rfl⟩ | ⟨_, hfree, rfl⟩⟩ := execOut_next.1 hx
  · exact h
  · have hmedia := mediaOk_output h.media hu.1 hdir h.diskSelect_lt (wordsOk_readBlock h.b_pos h.memory lo (unitSize f))
    exact ((h.setMedia hmedia).start hu (operationOk_output hdir hlo) (blockFree_output hfree)).advance hp

theorem ioc (h : s.Inv) (hp : s.pc ≤ 3999) (hx : execIoc a f s = .next t) : t.Inv := by
  obtain ⟨_, hu, ⟨_, rfl⟩ | ⟨_, media, hcontrol, rfl⟩⟩ := execIoc_next.1 hx
  · exact h
  · obtain ⟨hmedia, hcards⟩ := mediaOk_control h.media hcontrol
    exact ((h.setMedia hmedia).start hu (operationOk_control hcards) blockFree_control).advance hp

/-- Every instruction fetched from a cell keeps the invariant, family by family. -/
theorem exec (h : s.Inv) (hp : s.pc ≤ 3999) (i : Instr) (hx : exec i s = .next t) : t.Inv := by
  induction i using Instr.family_induction with
  | h_load r neg a f =>
    obtain ⟨c, _, _, rfl⟩ := loadInto_next.1 (exec_load r neg a f s ▸ hx)
    exact (h.putRegister r (wordOk_negateIf neg (wordOk_loadField h.b_pos f (h.cell c)))).advance (by rwa [putRegister_pc])
  | h_store r a f =>
    obtain ⟨c, ⟨⟨_, _, hc⟩, _⟩, rfl⟩ := storeFrom_next.1 (exec_store r a f s ▸ hx)
    exact (h.setCell hc (wordOk_storeField h.b_pos f (h.cell c) (h.storedWord r))).advance hp
  | h_arith k a f =>
    obtain ⟨c, _, rfl⟩ := arith_next.1 hx
    exact (h.arithResult k _).advance (by rwa [arithResult_pc])
  | h_floating k a => exact absurd (exec_floating k a s ▸ hx) floatingStop_next
  | h_enter r neg a =>
    obtain ⟨_, rfl⟩ := enter_next.1 (exec_enter r neg a s ▸ hx)
    exact (h.enterReg r _ _).advance (by rwa [enterReg_pc])
  | h_increase r neg a => exact h.increase hp (exec_increase r neg a s ▸ hx)
  | h_compare r a f =>
    obtain ⟨c, _, rfl⟩ := compareReg_next.1 (exec_compare r a f s ▸ hx)
    exact (h.setCi _).advance hp
  | h_ciJump c a => exact h.jumpWhen hp (exec_ciJump c a s ▸ hx)
  | h_regJump r c a => exact h.jumpWhen hp (exec_regJump r c a s ▸ hx)
  | h_shift k a =>
    obtain ⟨_, _, rfl⟩ := shift_next.1 hx
    exact (h.shiftResult k _).advance (by rwa [shiftResult_pc])
  | h_nop a f =>
    cases hx
    exact h.advance hp
  | h_num a =>
    cases hx
    exact h.toNumeric.advance (by rwa [toNumeric_pc])
  | h_char a =>
    cases hx
    exact h.toChars.advance hp
  | h_hlt a =>
    obtain ⟨_, rfl⟩ := execHlt_next.1 hx
    exact (h.setHalted true).advance hp
  | h_move a f => exact h.move hp hx
  | h_jbus a f =>
    obtain ⟨_, c, ⟨_, _, hc⟩, rfl⟩ := jumpOnUnit_next.1 hx
    exact h.ite_jumpTo hp hc _
  | h_ioc a f => exact h.ioc hp hx
  | h_inp a f => exact h.inp hp hx
  | h_out a f => exact h.out hp hx
  | h_jred a f =>
    obtain ⟨_, c, ⟨_, _, hc⟩, rfl⟩ := jumpOnUnit_next.1 hx
    exact h.ite_jumpTo hp hc _
  | h_jmp a => exact h.jumpWhen hp hx
  | h_jsj a =>
    obtain ⟨c, ⟨_, _, hc⟩, rfl⟩ := execJsj_next.1 hx
    exact h.setPc (Nat.le_succ_of_le hc)
  | h_jov a => exact (h.setOv false).jumpWhen hp hx
  | h_jnov a => exact (h.setOv false).jumpWhen hp hx

/-! #### The turns of the other agents -/

theorem tick (h : s.Inv) : s.tick.Inv := h.setPending (pendingOk_setWaits h.units fun q => q.wait - 1)

theorem complete (h : s.Inv) (u : Nat) : (s.complete u).Inv := by
  unfold State.complete
  split
  · next q hq =>
    obtain ⟨_, _, hop, _⟩ := h.units.2.1 _ (sparseLookup_mem hq)
    exact (h.setMem (memoryOk_deliver h.memory hop)).setPending (pendingOk_erase h.units u)
  · exact h

theorem operate (h : s.Inv) : s.operate.Inv := by
  unfold State.operate
  split
  · exact h
  · exact (h.setRestarts _).setHalted false
  · exact h.setRestarts _

end State.Inv

/-- What a step can be: the end of a transfer, the operator's turn, or an instruction fetched from a cell. -/
theorem step_next (h : step s = .next t) :
    (∃ u, t = s.complete u) ∨ t = s.tick.operate ∨ ∃ i, s.tick.pc ≤ 3999 ∧ exec i s.tick = .next t := by
  unfold step cycle at h
  split at h
  · next u _ =>
    cases h
    exact .inl ⟨u, rfl⟩
  · unfold processorStep at h
    split at h
    · cases h
      exact .inr (.inl rfl)
    · obtain ⟨hp, _, i, _, hi⟩ := withInstruction_next.1 h
      exact .inr (.inr ⟨i, hp, hi⟩)

end Sys2Proof.Machine

/-- Settles O7: each of the three kinds of step is a chain of updates that keep the invariant. -/
theorem stepKeepsInvariant : Obligations.StepKeepsInvariant := by
  intro s t hs hstep
  obtain ⟨u, rfl⟩ | rfl | ⟨i, hp, hi⟩ := Sys2Proof.Machine.step_next hstep
  · exact hs.complete u
  · exact hs.tick.operate
  · exact hs.tick.exec hp i hi

/-! ### Reset, and who reads and writes which piece of state (O6, O33, O34, O35, O36)

`exec_changes` says once, for all instructions, which pieces of state an instruction can change (the write column of 10_state.md R33);
`exec_agree` says once that an instruction which does not read rJ, or CI, does the same whatever it holds. -/

namespace Sys2Proof.Machine

variable {s s' t : State} {a : Addr} {f : Nat} {i : Instr}

/-! #### What an instruction writes -/

/-- What of the state `s` an instruction `i` that answers `t` can have changed (10_state.md R24 to R26, R33). A piece of state that an
update does not name is as before by computation, so a proof names the pieces that the update writes. -/
structure Changes (i : Instr) (s t : State) : Prop where
  params : t.params = s.params := by exact rfl
  rA : ¬ writesA i → t.rA = s.rA := by exact fun _ => rfl
  rX : ¬ writesX i → t.rX = s.rX := by exact fun _ => rfl
  index : ∀ n, ¬ writesIndex n i → t.index n = s.index n := by exact fun _ _ => rfl
  rJ : t.rJ = s.rJ ∨ (savesJ i ∧ t.rJ = s.pc + 1) := by exact .inl rfl
  ov : t.ov = s.ov ∨ (t.ov = true ∧ raisesOv i) ∨ (t.ov = false ∧ ∃ a, i = .jov a ∨ i = .jnov a) := by exact .inl rfl
  ci : (∀ r a f, i ≠ .compare r a f) → t.ci = s.ci := by exact fun _ => rfl
  mem : ¬ writesMemory i → t.mem = s.mem := by exact fun _ => rfl
  halted : (∀ a, i ≠ .hlt a) → t.halted = s.halted := by exact fun _ => rfl
  units : ¬ startsUnit i → t.pending = s.pending ∧ t.media = s.media := by exact fun _ => ⟨rfl, rfl⟩
  restarts : t.restarts = s.restarts := by exact rfl

namespace Changes

/-- Going on to the next location changes none of these. -/
theorem advance (h : Changes i s t) : Changes i s t.advance := { h with }

theorem setA (hi : writesA i) (w : Word) : Changes i s (s.setA w) where
  rA h := absurd hi h

theorem setX (hi : writesX i) (w : Word) : Changes i s (s.setX w) where
  rX h := absurd hi h

theorem setAX (ha : writesA i) (hx : writesX i) (w x : Word) : Changes i s ((s.setA w).setX x) where
  rA h := absurd ha h
  rX h := absurd hx h

theorem setIndex {n : Idx} (hi : writesIndex n i) (v : Short) : Changes i s (s.setIndex n v) where
  index _ hk := State.index_setIndex_other s v fun he => hk (he ▸ hi)

theorem putRegister (r : Reg) (w : Word) (ha : r = .a → writesA i) (hx : r = .x → writesX i)
    (hn : ∀ n, r = .i n → writesIndex n i) : Changes i s (putRegister r w s) := by
  cases r with
  | a => exact setA (ha rfl) w
  | x => exact setX (hx rfl) w
  | i n => exact setIndex (hn n rfl) _

theorem enterReg (r : Reg) (sign : Sign) (m : Nat) (ha : r = .a → writesA i) (hx : r = .x → writesX i)
    (hn : ∀ n, r = .i n → writesIndex n i) : Changes i s (enterReg r sign m s) := by
  cases r with
  | a => exact setA (ha rfl) _
  | x => exact setX (hx rfl) _
  | i n => exact setIndex (hn n rfl) _

/-- OV or-ed with something is as before or on. -/
theorem ov_or (hi : raisesOv i) (o v : Bool) :
    (o || v) = o ∨ ((o || v) = true ∧ raisesOv i) ∨ ((o || v) = false ∧ ∃ a, i = .jov a ∨ i = .jnov a) := by
  cases v with
  | false => exact .inl (Bool.or_false o)
  | true => exact .inr (.inl ⟨Bool.or_true o, hi⟩)

theorem addToA (ha : writesA i) (ho : raisesOv i) (v : Int) : Changes i s (addToA v s) where
  rA h := absurd ha h
  ov := ov_or ho s.ov _

theorem addToX (hx : writesX i) (ho : raisesOv i) (v : Int) : Changes i s (addToX v s) where
  rX h := absurd hx h
  ov := ov_or ho s.ov _

theorem divide (v : Word) : Changes (.div a f) s (divide v s) := by
  have ha : writesA (.div a f) := .inr (.inl ⟨.div, a, f, rfl⟩)
  have hx : writesX (.div a f) := .inr <| .inr <| .inl ⟨a, f, rfl⟩
  have ho : raisesOv (.div a f) := .inr <| .inr <| .inl ⟨a, f, rfl⟩
  obtain ⟨_, he⟩ | ⟨_, he⟩ := divide_cases v s
  · rw [he]
    exact { rA := fun h => absurd ha h, rX := fun h => absurd hx h, ov := .inr (.inl ⟨rfl, ho⟩) }
  · rw [he]
    exact { rA := fun h => absurd ha h, rX := fun h => absurd hx h }

theorem arithResult (k : ArithKind) (v : Word) : Changes (.arith k a f) s (arithResult k v s) := by
  have ha : writesA (.arith k a f) := .inr (.inl ⟨k, a, f, rfl⟩)
  cases k with
  | add => exact addToA ha (.inl ⟨a, f, rfl⟩) _
  | sub => exact addToA ha (.inr (.inl ⟨a, f, rfl⟩)) _
  | mul => exact setAX ha (.inr (.inl ⟨a, f, rfl⟩)) _ _
  | div => exact divide v

theorem increase {r : Reg} {neg : Bool} (hx : increase r neg a s = .next t) : Changes (.increase r neg a) s t := by
  obtain ⟨_, ⟨rfl, rfl⟩ | ⟨rfl, rfl⟩ | ⟨n, rfl, hn⟩⟩ := increase_next.1 hx
  · exact (addToA (.inr <| .inr <| .inr <| .inl ⟨neg, a, rfl⟩) (.inr <| .inr <| .inr <| .inl ⟨neg, a, rfl⟩) _).advance
  · exact (addToX (.inr <| .inr <| .inr <| .inr <| .inl ⟨neg, a, rfl⟩)
      (.inr <| .inr <| .inr <| .inr <| .inl ⟨neg, a, rfl⟩) _).advance
  · obtain ⟨_, rfl⟩ := addToIndex_next.1 hn
    exact (setIndex (.inr <| .inr <| .inl ⟨neg, a, rfl⟩) _).advance

theorem shiftResult (k : ShiftKind) (n : Nat) : Changes (.shift k a) s (shiftResult k n s) := by
  have ha : writesA (.shift k a) := .inr <| .inr <| .inr <| .inr <| .inl ⟨k, a, rfl⟩
  cases k with
  | sla => exact setA ha _
  | sra => exact setA ha _
  | slax => exact setAX ha (by simp [writesX, Instr.shift]) _ _
  | srax => exact setAX ha (by simp [writesX, Instr.shift]) _ _
  | slc => exact setAX ha (by simp [writesX, Instr.shift]) _ _
  | src => exact setAX ha (by simp [writesX, Instr.shift]) _ _

theorem toNumeric : Changes (.num a) s (toNumeric s) := by
  obtain ⟨w, o, n, he⟩ := toNumeric_frame s
  rw [he]
  exact {
    rA := fun h => absurd (.inr <| .inr <| .inr <| .inr <| .inr <| .inl ⟨a, rfl⟩) h
    ov := ov_or (.inr <| .inr <| .inr <| .inr <| .inr ⟨a, rfl⟩) s.ov o }

theorem move (hx : execMove a f s = .next t) : Changes (.move a f) s t := by
  obtain ⟨_, ⟨_, rfl⟩ | ⟨src, dst, _, _, _, _, _, _, rfl⟩⟩ := execMove_next.1 hx
  · exact {}
  · exact {
      index := fun k hk => State.index_setIndex_other (s.setMem _) _ fun he => hk (.inr <| .inr <| .inr ⟨he, a, f, rfl⟩)
      mem := fun h => absurd (.inr ⟨a, f, rfl⟩) h }

/-- Starting an operation of a unit changes the busy units and the media only. -/
theorem start (hi : startsUnit i) (m : Media) (u : Nat) (op : Operation) : Changes i s ((s.setMedia m).start u op) where
  units h := absurd hi h

theorem ite_jumpTo (hi : savesJ i) (c : Nat) (taken : Bool) : Changes i s (if taken then s.jumpTo c else s.advance) := by
  split
  · exact { rJ := .inr ⟨hi, rfl⟩ }
  · exact {}

theorem jumpWhen (hi : savesJ i) {taken : Bool} (hx : jumpWhen taken a s s = .next t) : Changes i s t := by
  obtain ⟨c, _, rfl⟩ := jumpWhen_next.1 hx
  exact ite_jumpTo hi c taken

theorem jumpOnUnit (hi : savesJ i) {taken : Bool} (hx : jumpOnUnit taken a f s = .next t) : Changes i s t := by
  obtain ⟨_, c, _, rfl⟩ := jumpOnUnit_next.1 hx
  exact ite_jumpTo hi c taken

/-- JOV and JNOV turn OV off, whether or not they jump (45_jump.md R254, R255). -/
theorem jumpWhen_setOv (hi : savesJ i) (ho : ∃ a, i = .jov a ∨ i = .jnov a) {taken : Bool}
    (hx : Machine.jumpWhen taken a s (s.setOv false) = .next t) : Changes i s t := by
  obtain ⟨c, _, rfl⟩ := jumpWhen_next.1 hx
  split
  · exact { rJ := .inr ⟨hi, rfl⟩, ov := .inr (.inr ⟨rfl, ho⟩) }
  · exact { ov := .inr (.inr ⟨rfl, ho⟩) }

end Changes

/-- What any instruction that answers a next state can have changed, family by family. -/
theorem exec_changes (i : Instr) (hx : exec i s = .next t) : Changes i s t := by
  induction i using Instr.family_induction with
  | h_load r neg a f =>
    obtain ⟨c, _, _, rfl⟩ := loadInto_next.1 (exec_load r neg a f s ▸ hx)
    exact (Changes.putRegister r _ (fun h => .inl ⟨neg, a, f, h ▸ rfl⟩) (fun h => .inl ⟨neg, a, f, h ▸ rfl⟩)
      (fun n h => .inl ⟨neg, a, f, h ▸ rfl⟩)).advance
  | h_store r a f =>
    obtain ⟨c, _, rfl⟩ := storeFrom_next.1 (exec_store r a f s ▸ hx)
    exact { mem := fun h => absurd (.inl ⟨r, a, f, rfl⟩) h }
  | h_arith k a f =>
    obtain ⟨c, _, rfl⟩ := arith_next.1 hx
    exact (Changes.arithResult k _).advance
  | h_floating k a => exact absurd (exec_floating k a s ▸ hx) floatingStop_next
  | h_enter r neg a =>
    obtain ⟨_, rfl⟩ := enter_next.1 (exec_enter r neg a s ▸ hx)
    exact (Changes.enterReg r _ _ (fun h => .inr <| .inr <| .inl ⟨neg, a, h ▸ rfl⟩)
      (fun h => .inr <| .inr <| .inr <| .inl ⟨neg, a, h ▸ rfl⟩) (fun n h => .inr (.inl ⟨neg, a, h ▸ rfl⟩))).advance
  | h_increase r neg a => exact .increase (exec_increase r neg a s ▸ hx)
  | h_compare r a f =>
    obtain ⟨c, _, rfl⟩ := compareReg_next.1 (exec_compare r a f s ▸ hx)
    exact { ci := fun h => absurd rfl (h r a f) }
  | h_ciJump c a => exact .jumpWhen (.inr <| .inr <| .inr <| .inl ⟨c, a, rfl⟩) (exec_ciJump c a s ▸ hx)
  | h_regJump r c a => exact .jumpWhen (.inr <| .inr <| .inr <| .inr <| .inl ⟨r, c, a, rfl⟩) (exec_regJump r c a s ▸ hx)
  | h_shift k a =>
    obtain ⟨_, _, rfl⟩ := shift_next.1 hx
    exact (Changes.shiftResult k _).advance
  | h_nop a f =>
    cases hx
    exact {}
  | h_num a =>
    cases hx
    exact Changes.toNumeric.advance
  | h_char a =>
    cases hx
    exact (Changes.setAX (.inr <| .inr <| .inr <| .inr <| .inr <| .inr ⟨a, rfl⟩) (by simp [writesX]) _ _).advance
  | h_hlt a =>
    obtain ⟨_, rfl⟩ := execHlt_next.1 hx
    exact { halted := fun h => absurd rfl (h a) }
  | h_move a f => exact .move hx
  | h_jbus a f => exact .jumpOnUnit (by simp [savesJ]) hx
  | h_ioc a f =>
    obtain ⟨_, _, ⟨_, rfl⟩ | ⟨_, media, _, rfl⟩⟩ := execIoc_next.1 hx
    · exact {}
    · exact (Changes.start (.inr (.inr ⟨a, f, rfl⟩)) _ _ _).advance
  | h_inp a f =>
    obtain ⟨lo, _, _, _, ⟨_, rfl⟩ | ⟨_, _, words, media, _, rfl⟩⟩ := execInp_next.1 hx
    · exact {}
    · exact (Changes.start (.inl ⟨a, f, rfl⟩) _ _ _).advance
  | h_out a f =>
    obtain ⟨lo, _, _, _, ⟨_, rfl⟩ | ⟨_, _, rfl⟩⟩ := execOut_next.1 hx
    · exact {}
    · exact (Changes.start (.inr (.inl ⟨a, f, rfl⟩)) _ _ _).advance
  | h_jred a f => exact .jumpOnUnit (by simp [savesJ]) hx
  | h_jmp a => exact .jumpWhen (.inl ⟨a, rfl⟩) hx
  | h_jsj a =>
    obtain ⟨c, _, rfl⟩ := execJsj_next.1 hx
    exact {}
  | h_jov a => exact .jumpWhen_setOv (.inr (.inl ⟨a, rfl⟩)) ⟨a, .inl rfl⟩ hx
  | h_jnov a => exact .jumpWhen_setOv (.inr <| .inr <| .inl ⟨a, rfl⟩) ⟨a, .inr rfl⟩ hx

/-! #### What an instruction reads -/

/-- `s'` is `s` but for rJ, where `dJ` allows that, and CI, where `dC` does. -/
def SameBut (dJ dC : Prop) (s s' : State) : Prop :=
  ∃ n c, s' = { s with rJ := n, ci := c } ∧ (n = s.rJ ∨ dJ) ∧ (c = s.ci ∨ dC)

/-- Both results stop alike, or go on to states that are the same but for rJ, where `dJ` allows that, and CI, where `dC` does. -/
def Agree (dJ dC : Prop) : Result → Result → Prop
  | .next t, .next t' => SameBut dJ dC t t'
  | .fault e, .fault e' => e = e'
  | .refused e, .refused e' => e = e'
  | _, _ => False

section

variable {dJ dC : Prop}

theorem Agree.of_next {r r' : Result} (h : Agree dJ dC r r') (hr : r = .next t) :
    ∃ t', r' = .next t' ∧ SameBut dJ dC t t' := by
  subst hr
  cases r' with
  | next t' => exact ⟨t', rfl, h⟩
  | fault e => exact h.elim
  | refused e => exact h.elim

theorem Agree.of_fault {r r' : Result} {e : Fault} (h : Agree dJ dC r r') (hr : r = .fault e) : r' = .fault e := by
  subst hr
  cases r' with
  | next t' => exact h.elim
  | fault e' => exact congrArg _ (Eq.symm h)
  | refused e' => exact h.elim

/-! No check reads rJ or CI, so through each of them results that agree still agree. -/

variable (hs : SameBut dJ dC s s')
include hs

theorem withM_agree {k k' : Int → Result} (hk : ∀ m, Agree dJ dC (k m) (k' m)) :
    Agree dJ dC (withM a s k) (withM a s' k') := by
  obtain ⟨n, c, rfl, _⟩ := hs
  change Agree dJ dC (withM a s k) (withM a s k')
  unfold withM
  split_ifs
  · rfl
  · rfl
  · exact hk _

theorem withField_agree {k k' : Result} (hk : Agree dJ dC k k') : Agree dJ dC (withField f s k) (withField f s' k') := by
  obtain ⟨n, c, rfl, _⟩ := hs
  change Agree dJ dC (withField f s k) (withField f s k')
  unfold withField
  split
  · exact hk
  · rfl

theorem withCell_agree {m : Int} {k k' : Nat → Result} (hk : ∀ c, Agree dJ dC (k c) (k' c)) :
    Agree dJ dC (withCell m s k) (withCell m s' k') := by
  obtain ⟨n, c, rfl, _⟩ := hs
  change Agree dJ dC (withCell m s k) (withCell m s k')
  unfold withCell
  split
  · exact hk _
  · rfl

theorem withBlock_agree {m : Int} {n : Nat} {k k' : Nat → Result} (hk : ∀ c, Agree dJ dC (k c) (k' c)) :
    Agree dJ dC (withBlock m n s k) (withBlock m n s' k') := by
  obtain ⟨_, _, rfl, _⟩ := hs
  change Agree dJ dC (withBlock m n s k) (withBlock m n s k')
  unfold withBlock
  split
  · exact hk _
  · rfl

theorem withoutHazard_agree {changing : Bool} {lo n : Nat} {k k' : Result} (hk : Agree dJ dC k k') :
    Agree dJ dC (withoutHazard changing lo n s k) (withoutHazard changing lo n s' k') := by
  obtain ⟨_, _, rfl, _⟩ := hs
  change Agree dJ dC (withoutHazard changing lo n s k) (withoutHazard changing lo n s k')
  unfold withoutHazard
  split
  · rfl
  · exact hk

theorem withUnit_agree {u : Nat} {k k' : Result} (hk : Agree dJ dC k k') : Agree dJ dC (withUnit u s k) (withUnit u s' k') := by
  obtain ⟨_, _, rfl, _⟩ := hs
  change Agree dJ dC (withUnit u s k) (withUnit u s k')
  unfold withUnit
  split_ifs
  · rfl
  · exact hk
  · rfl

theorem withDirection_agree {able : Bool} {u : Nat} {k k' : Result} (hk : Agree dJ dC k k') :
    Agree dJ dC (withDirection able u s k) (withDirection able u s' k') := by
  obtain ⟨_, _, rfl, _⟩ := hs
  change Agree dJ dC (withDirection able u s k) (withDirection able u s k')
  unfold withDirection
  split
  · exact hk
  · rfl

/-- A held instruction answers the state itself. -/
theorem whenReady_agree {u : Nat} {k k' : Result} (hk : Agree dJ dC k k') : Agree dJ dC (whenReady u s k) (whenReady u s' k') := by
  have hbusy : s'.busy u = s.busy u := by
    obtain ⟨_, _, rfl, _⟩ := hs
    rfl
  unfold whenReady
  rw [hbusy]
  split
  · exact hs
  · exact hk

theorem withInput_agree {u : Nat} {k k' : List Word → Media → Result} (hk : ∀ l m, Agree dJ dC (k l m) (k' l m)) :
    Agree dJ dC (withInput u s k) (withInput u s' k') := by
  obtain ⟨_, _, rfl, _⟩ := hs
  change Agree dJ dC (withInput u s k) (withInput u s k')
  unfold withInput
  split
  · exact hk _ _
  · split <;> rfl

theorem withControl_agree {u : Nat} {m : Int} {k k' : Media → Result} (hk : ∀ m, Agree dJ dC (k m) (k' m)) :
    Agree dJ dC (withControl u m s k) (withControl u m s' k') := by
  obtain ⟨_, _, rfl, _⟩ := hs
  change Agree dJ dC (withControl u m s k) (withControl u m s k')
  unfold withControl
  split_ifs
  · exact hk _
  · exact hk _
  · split
    · exact hk _
    · rfl
  · rfl
  · exact hk _
  · exact hk _
  · exact hk _

theorem withOperand_agree {k k' : Word → Result} (hk : ∀ v, Agree dJ dC (k v) (k' v)) :
    Agree dJ dC (withOperand a f s k) (withOperand a f s' k') := by
  have hcell : s'.cell = s.cell := by
    obtain ⟨_, _, rfl, _⟩ := hs
    rfl
  unfold withOperand
  rw [hcell]
  exact withM_agree hs fun _ => withField_agree hs (withCell_agree hs fun _ => withoutHazard_agree hs (hk _))

theorem withCount_agree {k k' : Nat → Result} (hk : ∀ n, Agree dJ dC (k n) (k' n)) :
    Agree dJ dC (withCount a s k) (withCount a s' k') := by
  refine withM_agree hs fun m => ?_
  obtain ⟨_, _, rfl, _⟩ := hs
  split
  · rfl
  · exact hk _

/-! The computations of the instructions read neither rJ nor CI, and leave both; a jump that occurs gives both states one rJ. -/

theorem SameBut.advance : SameBut dJ dC s.advance s'.advance := by
  obtain ⟨n, c, rfl, hn, hc⟩ := hs
  exact ⟨n, c, rfl, hn, hc⟩

theorem SameBut.jumpTo (m : Nat) : SameBut dJ dC (s.jumpTo m) (s'.jumpTo m) := by
  obtain ⟨n, c, rfl, _, hc⟩ := hs
  exact ⟨s.pc + 1, c, rfl, .inl rfl, hc⟩

theorem SameBut.ite {v v' : State} (hv : SameBut dJ dC v v') (p : Prop) [Decidable p] :
    SameBut dJ dC (if p then s else v) (if p then s' else v') := by
  split
  · exact hs
  · exact hv

theorem SameBut.putRegister (r : Reg) (w : Word) : SameBut dJ dC (putRegister r w s) (putRegister r w s') := by
  obtain ⟨n, c, rfl, hn, hc⟩ := hs
  cases r <;> exact ⟨n, c, rfl, hn, hc⟩

theorem SameBut.enterReg (r : Reg) (sign : Sign) (m : Nat) : SameBut dJ dC (enterReg r sign m s) (enterReg r sign m s') := by
  obtain ⟨n, c, rfl, hn, hc⟩ := hs
  cases r <;> exact ⟨n, c, rfl, hn, hc⟩

theorem SameBut.addToA (v : Int) : SameBut dJ dC (addToA v s) (addToA v s') := by
  obtain ⟨n, c, rfl, hn, hc⟩ := hs
  exact ⟨n, c, rfl, hn, hc⟩

theorem SameBut.addToX (v : Int) : SameBut dJ dC (addToX v s) (addToX v s') := by
  obtain ⟨n, c, rfl, hn, hc⟩ := hs
  exact ⟨n, c, rfl, hn, hc⟩

theorem SameBut.divide (v : Word) : SameBut dJ dC (divide v s) (divide v s') := by
  obtain ⟨n, c, rfl, hn, hc⟩ := hs
  unfold Machine.divide
  refine SameBut.ite ?_ ?_ (wordMag s.b v = 0 ∨ wordMag s.b v ≤ wordMag s.b s.rA)
  · exact ⟨n, c, rfl, hn, hc⟩
  · exact ⟨n, c, rfl, hn, hc⟩

theorem SameBut.arithResult (k : ArithKind) (v : Word) : SameBut dJ dC (arithResult k v s) (arithResult k v s') := by
  cases k with
  | div => exact hs.divide v
  | _ =>
    obtain ⟨n, c, rfl, hn, hc⟩ := hs
    exact ⟨n, c, rfl, hn, hc⟩

theorem SameBut.shiftResult (k : ShiftKind) (m : Nat) : SameBut dJ dC (shiftResult k m s) (shiftResult k m s') := by
  obtain ⟨n, c, rfl, hn, hc⟩ := hs
  cases k <;> exact ⟨n, c, rfl, hn, hc⟩

theorem SameBut.toNumeric : SameBut dJ dC (toNumeric s) (toNumeric s') := by
  obtain ⟨n, c, rfl, hn, hc⟩ := hs
  unfold Machine.toNumeric
  refine SameBut.ite ?_ ?_ (digitsValue (wordBytes s.rA ++ wordBytes s.rX) < wordSize s.b)
  · exact ⟨n, c, rfl, hn, hc⟩
  · exact ⟨n, c, rfl, hn, hc⟩

theorem SameBut.toChars : SameBut dJ dC (toChars s) (toChars s') := by
  obtain ⟨n, c, rfl, hn, hc⟩ := hs
  exact ⟨n, c, rfl, hn, hc⟩

theorem SameBut.start (m : Media) (u : Nat) (op : Operation) :
    SameBut dJ dC ((s.setMedia m).start u op) ((s'.setMedia m).start u op) := by
  obtain ⟨n, c, rfl, hn, hc⟩ := hs
  exact ⟨n, c, rfl, hn, hc⟩

theorem addToIndex_agree (n : Idx) (v : Int) : Agree dJ dC (addToIndex n v s) (addToIndex n v s') := by
  obtain ⟨m, c, rfl, hm, hc⟩ := hs
  change Agree dJ dC _ (if (shortVal s.b (s.index n) + v).natAbs ≥ s.b ^ 2 then _ else _)
  unfold addToIndex
  dsimp only
  split
  · rfl
  · exact ⟨m, c, rfl, hm, hc⟩

theorem putLoaded_agree (r : Reg) (w : Word) : Agree dJ dC (putLoaded r w s) (putLoaded r w s') := by
  have hput := (hs.putRegister r w).advance
  cases r with
  | a => exact hput
  | x => exact hput
  | i k =>
    obtain ⟨n, c, rfl, _⟩ := hs
    change Agree dJ dC _ (if wordMag s.b w ≥ s.b ^ 2 then _ else _)
    dsimp only [putLoaded]
    split
    · rfl
    · exact hput

theorem increase_agree (r : Reg) (neg : Bool) : Agree dJ dC (increase r neg a s) (increase r neg a s') :=
  withM_agree hs fun m => by
    cases r with
    | a => exact (hs.addToA _).advance
    | x => exact (hs.addToX _).advance
    | i n => exact addToIndex_agree hs n _

theorem storeFrom_agree (r : StoreSource) (hJ : dJ → r ≠ .j) : Agree dJ dC (storeFrom r a f s) (storeFrom r a f s') := by
  obtain ⟨n, c, rfl, hn, hc⟩ := id hs
  have hword : State.storedWord { s with rJ := n, ci := c } r = s.storedWord r := by
    cases r with
    | reg r => cases r <;> rfl
    | zero => rfl
    | j =>
      obtain rfl : n = s.rJ := hn.resolve_right fun h => hJ h rfl
      rfl
  rw [storeFrom, storeFrom, hword]
  refine withM_agree hs fun m => withField_agree hs (withCell_agree hs fun k => withoutHazard_agree hs ?_)
  exact ⟨n, c, rfl, hn, hc⟩

/-- A comparison writes CI from the same operands, so afterwards the states no longer differ in CI. -/
theorem compareReg_agree (r : Reg) : Agree dJ dC (compareReg r a f s) (compareReg r a f s') := by
  obtain ⟨n, c, rfl, hn, _⟩ := id hs
  refine withOperand_agree hs fun v => ?_
  cases r <;> exact ⟨n, _, rfl, hn, .inl rfl⟩

theorem jumpWhen_agree {v v' : State} (hv : SameBut dJ dC v v') (taken : Bool) :
    Agree dJ dC (jumpWhen taken a s v) (jumpWhen taken a s' v') :=
  withM_agree hs fun _ => withCell_agree hs fun c => (hv.jumpTo c).ite hv.advance (taken = true)

theorem jumpOnReg_agree (r : Reg) (k : Cond) : Agree dJ dC (jumpOnReg r k a s) (jumpOnReg r k a s') := by
  have hval : s'.regVal r = s.regVal r := by
    obtain ⟨_, _, rfl, _⟩ := hs
    cases r <;> rfl
  rw [jumpOnReg, jumpOnReg, hval]
  exact jumpWhen_agree hs hs _

theorem jumpOnCi_agree (k : CiCond) (hC : ¬ dC) : Agree dJ dC (jumpOnCi k a s) (jumpOnCi k a s') := by
  have hci : s'.ci = s.ci := by
    obtain ⟨_, c, rfl, _, hc⟩ := hs
    exact hc.resolve_right hC
  rw [jumpOnCi, jumpOnCi, hci]
  exact jumpWhen_agree hs hs _

/-- A jump on OV, which is off afterwards. -/
theorem jumpOnOv_agree (taken : Bool) : Agree dJ dC (jumpWhen taken a s (s.setOv false)) (jumpWhen taken a s' (s'.setOv false)) := by
  obtain ⟨n, c, rfl, hn, hc⟩ := id hs
  exact jumpWhen_agree (v := s.setOv false) hs ⟨n, c, rfl, hn, hc⟩ taken

theorem jumpOnUnit_agree (taken : Bool) : Agree dJ dC (jumpOnUnit taken a f s) (jumpOnUnit taken a f s') :=
  withM_agree hs fun _ => withUnit_agree hs (withCell_agree hs fun c => (hs.jumpTo c).ite hs.advance (taken = true))

theorem execJsj_agree : Agree dJ dC (execJsj a s) (execJsj a s') := by
  obtain ⟨n, c, rfl, hn, hc⟩ := id hs
  refine withM_agree hs fun _ => withCell_agree hs fun _ => ?_
  exact ⟨n, c, rfl, hn, hc⟩

theorem execHlt_agree : Agree dJ dC (execHlt a s) (execHlt a s') := by
  obtain ⟨n, c, rfl, hn, hc⟩ := id hs
  refine withM_agree hs fun _ => ?_
  exact ⟨n, c, rfl, hn, hc⟩

theorem execMove_agree : Agree dJ dC (execMove a f s) (execMove a f s') := by
  obtain ⟨n, c, rfl, hn, hc⟩ := id hs
  unfold execMove
  refine withM_agree hs fun m => ?_
  split
  · exact hs.advance
  · refine withBlock_agree hs fun _ => withBlock_agree hs fun _ => withoutHazard_agree hs (withoutHazard_agree hs ?_)
    exact ⟨n, c, rfl, hn, hc⟩

theorem execIoc_agree : Agree dJ dC (execIoc a f s) (execIoc a f s') := by
  refine withM_agree hs fun _ => withUnit_agree hs (whenReady_agree hs (withControl_agree hs fun m => ?_))
  exact (hs.start m f .control).advance

theorem execInp_agree : Agree dJ dC (execInp a f s) (execInp a f s') := by
  refine withM_agree hs fun _ => withUnit_agree hs (withDirection_agree hs (withBlock_agree hs fun lo =>
    whenReady_agree hs (withoutHazard_agree hs (withInput_agree hs fun l m => ?_))))
  exact (hs.start m f (.input lo l)).advance

theorem execOut_agree : Agree dJ dC (execOut a f s) (execOut a f s') := by
  obtain ⟨n, c, rfl, hn, hc⟩ := id hs
  refine withM_agree hs fun _ => withUnit_agree hs (withDirection_agree hs (withBlock_agree hs fun lo =>
    whenReady_agree hs (withoutHazard_agree hs ?_)))
  exact (hs.start _ f (.output lo)).advance

/-- An instruction that reads none of the pieces in which two states differ does the same in both, family by family. -/
theorem exec_agree (i : Instr) (hJ : dJ → ∀ a f, i ≠ .stj a f) (hC : dC → ∀ c a, i ≠ .ciJump c a) :
    Agree dJ dC (exec i s) (exec i s') := by
  obtain ⟨n, c, rfl, _⟩ := id hs
  induction i using Instr.family_induction with
  | h_load r neg a f =>
    rw [exec_load, exec_load]
    exact withOperand_agree hs fun v => putLoaded_agree hs r _
  | h_store r a f =>
    rw [exec_store, exec_store]
    exact storeFrom_agree hs r fun h he => hJ h a f (he ▸ rfl)
  | h_arith k a f =>
    rw [exec_arith, exec_arith]
    exact withOperand_agree hs fun v => (hs.arithResult k v).advance
  | h_floating k a =>
    rw [exec_floating, exec_floating]
    exact withM_agree hs fun _ => rfl
  | h_enter r neg a =>
    rw [exec_enter, exec_enter]
    exact withM_agree hs fun _ => (hs.enterReg r _ _).advance
  | h_increase r neg a =>
    rw [exec_increase, exec_increase]
    exact increase_agree hs r neg
  | h_compare r a f =>
    rw [exec_compare, exec_compare]
    exact compareReg_agree hs r
  | h_ciJump k a =>
    rw [exec_ciJump, exec_ciJump]
    exact jumpOnCi_agree hs k fun h => hC h k a rfl
  | h_regJump r k a =>
    rw [exec_regJump, exec_regJump]
    exact jumpOnReg_agree hs r k
  | h_shift k a =>
    rw [exec_shift, exec_shift]
    exact withCount_agree hs fun m => (hs.shiftResult k m).advance
  | h_nop a f => exact hs.advance
  | h_num a => exact hs.toNumeric.advance
  | h_char a => exact hs.toChars.advance
  | h_hlt a => exact execHlt_agree hs
  | h_move a f => exact execMove_agree hs
  | h_jbus a f => exact jumpOnUnit_agree hs _
  | h_ioc a f => exact execIoc_agree hs
  | h_inp a f => exact execInp_agree hs
  | h_out a f => exact execOut_agree hs
  | h_jred a f => exact jumpOnUnit_agree hs _
  | h_jmp a => exact jumpWhen_agree hs hs true
  | h_jsj a => exact execJsj_agree hs
  | h_jov a => exact jumpOnOv_agree hs s.ov
  | h_jnov a => exact jumpOnOv_agree hs (!s.ov)

end

end Sys2Proof.Machine

section

open Sys2Proof Sys2Proof.Machine

/-- Settles O33: what can write CI is read off `exec_changes`, what can read it off `exec_agree` for states that differ in CI. -/
theorem comparisonIndicatorUse : Obligations.ComparisonIndicatorUse := by
  refine fun i s => ⟨fun hi t hx => (exec_changes i hx).ci hi, fun hi v => ?_⟩
  have hagree : Agree False True (exec i s) (exec i { s with ci := v }) :=
    exec_agree ⟨s.rJ, v, rfl, .inl rfl, .inr trivial⟩ i nofun fun _ => hi
  refine ⟨fun t hx => ?_, fun e he => hagree.of_fault he⟩
  obtain ⟨t', ht', n, w, rfl, hn, _⟩ := hagree.of_next hx
  obtain rfl : n = t.rJ := hn.resolve_right id
  exact ⟨w, ht'⟩

/-- Settles O34: what can write rJ is read off `exec_changes`, what can read it off `exec_agree` for states that differ in rJ. -/
theorem jumpRegisterUse : Obligations.JumpRegisterUse := by
  refine fun i s => ⟨fun t hx => (exec_changes i hx).rJ, fun hi m => ?_⟩
  have hagree : Agree True False (exec i s) (exec i { s with rJ := m }) :=
    exec_agree ⟨m, s.ci, rfl, .inr trivial, .inl rfl⟩ i (fun _ => hi) nofun
  refine ⟨fun t hx => ?_, fun e he => hagree.of_fault he⟩
  obtain ⟨t', ht', n, c, rfl, _, hc⟩ := hagree.of_next hx
  obtain rfl : c = t.ci := hc.resolve_right id
  exact ⟨n, ht'⟩

/-- Settles O35: by `exec_changes`, OV is as before, or turned on by an instruction that may, or off by JOV or JNOV. -/
theorem overflowToggleUse : Obligations.OverflowToggleUse := by
  intro i s t hx
  obtain hkept | ⟨hon, hraises⟩ | ⟨hoff, hjump⟩ := (exec_changes i hx).ov
  · exact ⟨fun h0 h1 => by simp_all, fun h1 h0 => by simp_all⟩
  · exact ⟨fun _ _ => hraises, fun _ h0 => by simp_all⟩
  · exact ⟨fun _ h1 => by simp_all, fun _ _ => hjump⟩

/-- Settles O36: the pieces of `exec_changes`, the memory as its cells. -/
theorem writerTable : Obligations.WriterTable := by
  intro i s t hx
  have h := exec_changes i hx
  exact ⟨h.rA, h.rX, h.index, fun hi n => congrArg (Memory.read · n) (h.mem hi), h.halted, h.units, h.params, h.restarts⟩

/-- Settles O6: the parameters are those of a MIX, every register and flag is zero or off, and memory, units and media are empty. -/
theorem resetMeetsInvariant : Obligations.ResetMeetsInvariant where
  params := by decide
  registers := by decide
  memory := ⟨Memory.wf_nil, nofun⟩
  location := Nat.zero_le _
  units := ⟨.nil, nofun, nofun⟩
  tapes := ⟨.nil, nofun⟩
  disks := ⟨.nil, nofun⟩
  chars := ⟨nofun, le_rfl, nofun, nofun, nofun, le_rfl, nofun⟩

end

/-! ### Fields, operand checks and stores (O14 to O17, O27, O60)

Both views of a field are known byte by byte: `byteAt_loadField` and `byteAt_storeField`. The magnitudes follow, as sums of bytes
counted from the right-hand end. -/

namespace Sys2Proof.Machine

variable {s : State} {a : Addr} {f b : Nat} {i : Instr} {changing : Bool}

/-! #### The bytes of a field -/

/-- The first byte of a field, sign position excluded. -/
def fieldFirst (f : Nat) : Nat := max (f / 8) 1

/-- The last byte of a field. -/
def fieldLast (f : Nat) : Nat := f % 8

/-- How many bytes a field has, the sign position not counted. -/
def fieldLength (f : Nat) : Nat := fieldLast f + 1 - fieldFirst f

/-- The bytes of an allowable field lie in a word, and the field ends at most one position before it begins: (0:0) has no byte
(20_memory.md R57). -/
theorem fieldOk_bounds (hf : fieldOk f = true) : 1 ≤ fieldFirst f ∧ fieldFirst f ≤ fieldLast f + 1 ∧ fieldLast f ≤ 5 := by
  simp only [fieldOk, Bool.and_eq_true, decide_eq_true_eq] at hf
  simp only [fieldFirst, fieldLast]
  omega

theorem byteAt_wordOfBytes (sg : Sign) (l : List Nat) {k : Nat} (h1 : 1 ≤ k) (h5 : k ≤ 5) :
    byteAt (wordOfBytes sg l) k = l.getD (k - 1) 0 := by
  interval_cases k <;> rfl

theorem length_wordBytes (w : Word) : (wordBytes w).length = 5 := rfl

theorem loadField_sign (w : Word) (f : Nat) : (loadField w f).sign = if f / 8 = 0 then w.sign else .plus := rfl

theorem storeField_sign (old r : Word) (f : Nat) : (storeField old r f).sign = if f / 8 = 0 then r.sign else old.sign := rfl

theorem fieldLength_le_five (hf : fieldOk f = true) : fieldLength f ≤ 5 := by
  obtain ⟨hfirst, -, hlast⟩ := fieldOk_bounds hf
  rw [fieldLength]
  omega

/-- The load view, counted from the right-hand end: the bytes of the field, then zeros (20_memory.md R55). -/
theorem byteAt_loadField (hf : fieldOk f = true) (w : Word) {j : Nat} (hj : j < 5) :
    byteAt (loadField w f) (5 - j) = if j < fieldLength f then byteAt w (fieldLast f - j) else 0 := by
  obtain ⟨hfirst, hle, hlast⟩ := fieldOk_bounds hf
  have hlen : (((wordBytes w).take (fieldLast f)).drop (fieldFirst f - 1)).length = fieldLength f := by
    simp only [List.length_drop, List.length_take, length_wordBytes, fieldLength]
    omega
  rw [loadField, byteAt_wordOfBytes _ _ (by omega) (by omega), ← fieldFirst, ← fieldLast, hlen, List.getD_eq_getElem?_getD]
  have hn : fieldLength f = fieldLast f + 1 - fieldFirst f := rfl
  split
  · next hin =>
    rw [List.getElem?_append_right (by rw [List.length_replicate]; omega), List.length_replicate, List.getElem?_drop,
      List.getElem?_take_of_lt (by omega), byteAt, List.getD_eq_getElem?_getD]
    congr 3
    omega
  · next hout =>
    rw [List.getElem?_append_left (by rw [List.length_replicate]; omega), List.getElem?_replicate_of_lt (by omega),
      Option.getD_some]

/-- The store view: in the field the right-hand bytes of the register, elsewhere the bytes of the old word (20_memory.md R56). -/
theorem byteAt_storeField (hf : fieldOk f = true) (old r : Word) {k : Nat} (h1 : 1 ≤ k) (h5 : k ≤ 5) :
    byteAt (storeField old r f) k =
      if fieldFirst f ≤ k ∧ k ≤ fieldLast f then byteAt r (5 - (fieldLast f - k)) else byteAt old k := by
  obtain ⟨hfirst, hle, hlast⟩ := fieldOk_bounds hf
  have hleft : ((wordBytes old).take (fieldFirst f - 1)).length = fieldFirst f - 1 := by
    rw [List.length_take, length_wordBytes]
    omega
  have hmid : ((wordBytes r).drop (5 - fieldLength f)).length = fieldLength f := by
    rw [List.length_drop, length_wordBytes, fieldLength]
    omega
  have hn : fieldLength f = fieldLast f + 1 - fieldFirst f := rfl
  rw [storeField, byteAt_wordOfBytes _ _ h1 h5, ← fieldFirst, ← fieldLast, ← fieldLength, List.getD_eq_getElem?_getD,
    List.append_assoc]
  split
  · next hin =>
    rw [List.getElem?_append_right (by omega), List.getElem?_append_left (by omega), hleft, List.getElem?_drop, byteAt,
      List.getD_eq_getElem?_getD]
    congr 2
    omega
  · next hout =>
    rw [byteAt, List.getD_eq_getElem?_getD]
    by_cases hbefore : k < fieldFirst f
    · rw [List.getElem?_append_left (by omega), List.getElem?_take_of_lt (by omega)]
    · rw [List.getElem?_append_right (by omega), List.getElem?_append_right (by omega), hleft, hmid, List.getElem?_drop]
      congr 2
      omega

/-- The bytes of the field, counted from its right-hand end, are those of the register (20_memory.md R56). -/
theorem byteAt_storeField_inside (hf : fieldOk f = true) (old r : Word) {j : Nat} (hj : j < fieldLength f) :
    byteAt (storeField old r f) (fieldLast f - j) = byteAt r (5 - j) := by
  obtain ⟨hfirst, hle, hlast⟩ := fieldOk_bounds hf
  have hn : fieldLength f = fieldLast f + 1 - fieldFirst f := rfl
  rw [byteAt_storeField hf old r (by omega) (by omega), if_pos (by omega), Nat.sub_sub_self (by omega)]

/-! #### Magnitudes as sums of bytes, counted from the right-hand end -/

theorem wordMag_eq_sum (b : Nat) (w : Word) : wordMag b w = ∑ j ∈ Finset.range 5, byteAt w (5 - j) * b ^ j := by
  simp only [wordMag, byteAt, wordBytes, Finset.sum_range_succ, Finset.sum_range_zero, Nat.add_one_sub_one, Nat.reduceSub,
    List.getD_cons_zero, List.getD_cons_succ]
  ring

theorem byteAt_lt {w : Word} (h : wordOk b w) {k : Nat} (h5 : k ≤ 5) : byteAt w k < b := by
  rw [byteAt, List.getD_eq_getElem _ _ (by rw [length_wordBytes]; omega)]
  exact wordBytes_lt h _ (List.getElem_mem _)

/-- The magnitude of the load view is the number that the bytes of the field denote. -/
theorem wordMag_loadField (hf : fieldOk f = true) (b : Nat) (w : Word) :
    wordMag b (loadField w f) = ∑ j ∈ Finset.range (fieldLength f), byteAt w (fieldLast f - j) * b ^ j := by
  have hzero : ∀ j ∈ Finset.range 5, j ∉ Finset.range (fieldLength f) → byteAt (loadField w f) (5 - j) * b ^ j = 0 := by
    intro j hj hout
    rw [byteAt_loadField hf w (Finset.mem_range.1 hj), if_neg (mt Finset.mem_range.2 hout), Nat.zero_mul]
  rw [wordMag_eq_sum, ← Finset.sum_subset (Finset.range_subset_range.2 (fieldLength_le_five hf)) hzero]
  refine Finset.sum_congr rfl fun j hj => ?_
  have hj := Finset.mem_range.1 hj
  rw [byteAt_loadField hf w (hj.trans_le (fieldLength_le_five hf)), if_pos hj]

/-- The same sum over the byte numbers of the field, as 20_memory.md R55 writes it. -/
theorem wordMag_loadField_Icc (hf : fieldOk f = true) (b : Nat) (w : Word) :
    wordMag b (loadField w f) = ∑ k ∈ Finset.Icc (fieldFirst f) (fieldLast f), byteAt w k * b ^ (fieldLast f - k) := by
  obtain ⟨hfirst, hle, hlast⟩ := fieldOk_bounds hf
  rw [wordMag_loadField hf]
  refine Finset.sum_nbij' (fieldLast f - ·) (fieldLast f - ·) ?_ ?_ ?_ ?_ ?_ <;>
    simp only [Finset.mem_range, Finset.mem_Icc, fieldLength]
  · omega
  · omega
  · omega
  · omega
  · intro j hj
    rw [Nat.sub_sub_self (by omega)]

/-- A number of `n` digits is below the `n`-th power of the base. -/
theorem sum_digits_lt_pow {d : Nat → Nat} {n : Nat} (h : ∀ j < n, d j < b) : ∑ j ∈ Finset.range n, d j * b ^ j < b ^ n := by
  induction n with
  | zero => simp
  | succ n ih =>
    have hlow := ih fun j hj => h j (by omega)
    have htop : (d n + 1) * b ^ n ≤ b * b ^ n := Nat.mul_le_mul_right _ (h n (by omega))
    rw [Finset.sum_range_succ, pow_succ']
    linarith

/-- Taking a number modulo the `n`-th power of the base keeps its `n` lowest digits. -/
theorem sum_digits_mod_pow {d : Nat → Nat} {n m : Nat} (hn : n ≤ m) (h : ∀ j < n, d j < b) :
    (∑ j ∈ Finset.range m, d j * b ^ j) % b ^ n = ∑ j ∈ Finset.range n, d j * b ^ j := by
  have hhigh : b ^ n ∣ ∑ j ∈ Finset.Ico n m, d j * b ^ j :=
    Finset.dvd_sum fun j hj => Dvd.dvd.mul_left (pow_dvd_pow b (Finset.mem_Ico.1 hj).1) _
  obtain ⟨q, hq⟩ := hhigh
  rw [← Finset.sum_range_add_sum_Ico _ hn, hq, Nat.add_mul_mod_self_left, Nat.mod_eq_of_lt (sum_digits_lt_pow h)]

/-! #### The checks on a memory operand -/

/-- The checks that loads, arithmetic, comparisons and stores share, then the access to the cell (60_exceptions.md R403). -/
def withFieldOfCell (changing : Bool) (a : Addr) (f : Nat) (s : State) (k : Nat → Result) : Result :=
  withM a s fun m => withField f s <| withCell m s fun c => withoutHazard changing c 1 s <| k c

theorem withOperand_eq_withFieldOfCell (k : Word → Result) :
    withOperand a f s k = withFieldOfCell false a f s fun c => k (loadField (s.cell c) f) := rfl

theorem storeFrom_eq_withFieldOfCell (r : StoreSource) :
    storeFrom r a f s =
      withFieldOfCell true a f s fun c => .next (s.setCell c (storeField (s.cell c) (s.storedWord r) f)).advance := rfl

theorem withField_fault (h : fieldOk f = false) (k : Result) : withField f s k = .fault (.invalidField s.pc f) := by
  rw [withField, h]
  rfl

theorem withCell_fault {m : Int} (h : m < 0 ∨ 3999 < m) (k : Nat → Result) :
    withCell m s k = .fault (.memoryAddress s.pc m) := by
  rw [withCell, if_neg (by omega)]

theorem withoutHazard_fault {lo n d u : Nat} (h : s.hazard changing lo n = some (d, u)) (k : Result) :
    withoutHazard changing lo n s k = .fault (.ioHazard s.pc d u) := by
  simp only [withoutHazard, h]

theorem withFieldOfCell_badField (ha : addrOk a s) (hf : fieldOk f = false) (k : Nat → Result) :
    withFieldOfCell changing a f s k = .fault (.invalidField s.pc f) := by
  rw [withFieldOfCell, withM_pass ha, withField_fault hf]

theorem withFieldOfCell_badCell (ha : addrOk a s) (hf : fieldOk f = true) (hm : addrSum a s < 0 ∨ 3999 < addrSum a s)
    (k : Nat → Result) : withFieldOfCell changing a f s k = .fault (.memoryAddress s.pc (addrSum a s)) := by
  rw [withFieldOfCell, withM_pass ha, withField_pass hf, withCell_fault hm]

theorem withFieldOfCell_owned {c d u : Nat} (ha : cellOk a c s) (hf : fieldOk f = true)
    (hh : s.hazard changing c 1 = some (d, u)) (k : Nat → Result) :
    withFieldOfCell changing a f s k = .fault (.ioHazard s.pc d u) := by
  obtain ⟨ha, hm, hc⟩ := ha
  rw [withFieldOfCell, withM_pass ha, withField_pass hf, hm, withCell_pass hc, withoutHazard_fault hh]

/-- An instruction with a memory operand and a field is these checks and an access, reading or changing. -/
theorem exec_eq_withFieldOfCell
    (h : (changing = false ∧ ((∃ r neg, i = .load r neg a f) ∨ (f ≠ 6 ∧ ∃ k, i = .arith k a f) ∨ ∃ r, i = .compare r a f)) ∨
      (changing = true ∧ ∃ r, i = .store r a f)) (s : State) :
    ∃ k, exec i s = withFieldOfCell changing a f s k := by
  rcases h with ⟨rfl, ⟨r, neg, rfl⟩ | ⟨-, k, rfl⟩ | ⟨r, rfl⟩⟩ | ⟨rfl, r, rfl⟩
  · exact ⟨_, (exec_load r neg a f s).trans (withOperand_eq_withFieldOfCell _)⟩
  · exact ⟨_, (exec_arith k a f s).trans (withOperand_eq_withFieldOfCell _)⟩
  · exact ⟨_, (exec_compare r a f s).trans (withOperand_eq_withFieldOfCell _)⟩
  · exact ⟨_, (exec_store r a f s).trans (storeFrom_eq_withFieldOfCell r)⟩

/-! #### Comparing -/

/-- The three outcomes of a comparison are the three orders of two numbers (44_comparison.md R230). -/
theorem compareVals_iff (x y : Int) :
    (compareVals x y = .less ↔ x < y) ∧ (compareVals x y = .equal ↔ x = y) ∧ (compareVals x y = .greater ↔ y < x) := by
  unfold compareVals
  rcases lt_trichotomy x y with h | rfl | h
  · simp [h, h.ne, h.le]
  · simp
  · simp [h, h.ne', h.not_gt]

/-- The field (0:0) is a sign and no byte: a zero (44_comparison.md R230). -/
theorem wordVal_loadField_zero (b : Nat) (w : Word) : wordVal b (loadField w 0) = 0 := by
  have hmag : wordMag b (loadField w 0) = 0 := wordMag_loadField (f := 0) rfl b w
  rw [wordVal, hmag, Sign.apply_zero]

/-! #### The fetch after a store -/

/-- Time passing for the units changes nothing about which cells they own. -/
theorem hazard_tick (s : State) (changing : Bool) (lo n : Nat) : s.tick.hazard changing lo n = s.hazard changing lo n := by
  rw [State.hazard, State.tick_pending, List.findSome?_map]
  rfl

/-- A running machine in which no transfer ends runs the instruction at its location counter. -/
theorem step_eq_exec (hdue : s.due = none) (hrun : s.halted = false) (hpc : s.pc ≤ 3999) (hh : s.hazard false s.pc 1 = none)
    (hd : decode (s.cell s.pc) = .ok i) : step s = exec i s.tick := by
  have hfetch : s.tick.hazard false s.tick.pc 1 = none := (hazard_tick s false s.pc 1).trans hh
  rw [step, cycle, hdue]
  show processorStep exec s.tick = exec i s.tick
  rw [processorStep, State.tick_halted, hrun, if_neg Bool.false_ne_true]
  exact withInstruction_pass hpc hfetch hd

@[simp] theorem State.cell_setCell_same (s : State) (n : Nat) (w : Word) : (s.setCell n w).cell n = w :=
  Memory.read_write_same s.mem n w

end Sys2Proof.Machine

section

open Sys2Proof Sys2Proof.Machine

/-- Settles O14: the instructions named are the shared checks and an access (`exec_eq_withFieldOfCell`), which stop at the first check
that fails. -/
theorem operandChecks : Obligations.OperandChecks := by
  intro i changing a f s hi ha
  obtain ⟨k, hk⟩ := exec_eq_withFieldOfCell hi s
  rw [hk]
  exact ⟨fun hf => withFieldOfCell_badField ha hf k, fun hf hm => withFieldOfCell_badCell ha hf hm k,
    fun hf c hm hc d u hh => withFieldOfCell_owned ⟨ha, hm, hc⟩ hf hh k⟩

/-- Settles O15: a word is the word of its sign and magnitude, and both of the load view are known. -/
theorem loadView : Obligations.LoadView := by
  intro b w f hf hw
  have hb : 0 < b := Nat.zero_lt_of_lt hw.1
  refine ⟨?_, fun j hj => byteAt_loadField hf w hj⟩
  calc loadField w f
      = wordOfMag b (loadField w f).sign (wordMag b (loadField w f)) := (wordOfMag_mag (wordOk_loadField hb f hw)).symm
    _ = _ := by rw [wordMag_loadField_Icc hf, loadField_sign, fieldFirst, fieldLast]

/-- Settles O16: `byteAt_storeField` for a byte outside the field, `byteAt_storeField_inside` for one of it. -/
theorem storeView : Obligations.StoreView := by
  intro old r f hf
  refine ⟨storeField_sign old r f, fun j hj => byteAt_storeField_inside hf old r hj, fun k h1 h5 hk => ?_⟩
  rw [byteAt_storeField hf old r h1 h5, if_neg]
  simp only [fieldFirst, fieldLast]
  omega

/-- Settles O17: byte by byte the load view reads the register's right-hand end, whose number is the remainder. -/
theorem loadOfStore : Obligations.LoadOfStore := by
  intro b old r f hf hr
  constructor
  · rw [loadField_sign, storeField_sign]
    split <;> rfl
  · calc wordMag b (loadField (storeField old r f) f)
        = ∑ j ∈ Finset.range (fieldLength f), byteAt (storeField old r f) (fieldLast f - j) * b ^ j := wordMag_loadField hf b _
      _ = ∑ j ∈ Finset.range (fieldLength f), byteAt r (5 - j) * b ^ j :=
          Finset.sum_congr rfl fun j hj => by rw [byteAt_storeField_inside hf old r (Finset.mem_range.1 hj)]
      _ = (∑ j ∈ Finset.range 5, byteAt r (5 - j) * b ^ j) % b ^ fieldLength f :=
          (sum_digits_mod_pow (fieldLength_le_five hf) fun j _ => byteAt_lt hr (Nat.sub_le 5 j)).symm
      _ = wordMag b r % b ^ fieldLength f := by rw [wordMag_eq_sum]

/-- Settles O27: with its checks passed a comparison sets CI and goes on. -/
theorem compareInstructions : Obligations.CompareInstructions := by
  intro r a f c s hok
  obtain ⟨hless, hequal, hgreater⟩ :=
    compareVals_iff (wordVal s.b (loadField (s.regWord r) f)) (wordVal s.b (loadField (s.cell c) f))
  refine ⟨_, (exec_compare r a f s).trans (compareReg_next.2 ⟨c, hok, rfl⟩), rfl, hless, hequal, hgreater, ?_⟩
  rintro rfl
  exact hequal.2 (by rw [wordVal_loadField_zero, wordVal_loadField_zero])

/-- Settles O60: the store leaves the units and the running of the machine as they were, and a cell free for changing is free for the
fetch. -/
theorem storeSeenByFetch : Obligations.StoreSeenByFetch := by
  rintro r a f c s i hok rfl hdue hrun hd
  refine ⟨_, (exec_store r a f s).trans (storeFrom_next.2 ⟨s.pc + 1, hok, rfl⟩), ?_⟩
  obtain ⟨⟨-, -, hpc⟩, -, hfree⟩ := hok
  refine step_eq_exec hdue hrun hpc (hazard_false_of_true hfree) ?_
  exact (congrArg decode (State.cell_setCell_same s _ _)).trans hd

end

/-! ### Decoding and encoding, the fetch, and the indexed address (O1 to O5, O8, O10, O12, O13)

What the decoder and the encoder say of a word is a fact about the rows of `OPTAB`: `encode_build` is the word of a row, `fCount` the
values of F that the rows of a C tell apart. -/

namespace Sys2Proof

variable {b c f : Nat} {a : Addr} {i : Instr} {r : OpRow} {w : Word}

/-! #### The rows of the table -/

theorem OpRow.matches_iff : r.matches c f = true ↔ r.c = c ∧ (r.sel = none ∨ r.sel = some f) := by
  unfold OpRow.matches
  cases r.sel <;> simp

/-- The word of a row: its own C, and its selecting F where it has one (30_encoding.md R81, R90). -/
theorem encode_build (hr : r ∈ optab) (a : Addr) (f : Nat) : encode (r.build a f) = a.word (r.sel.getD f) r.c :=
  (List.map_inj_left (f := fun r : OpRow => encode (r.build a f)) (g := fun r => a.word (r.sel.getD f) r.c)).1 rfl r hr

/-- Whether the operands of a row are bytes, and not those of a floating-point row (30_encoding.md R81, R92). -/
def OpRow.operandsOk (b : Nat) (a : Addr) (f : Nat) (r : OpRow) : Bool :=
  match r.sel with
  | some _ => a.wellFormed b
  | none =>
    if 1 ≤ r.c ∧ r.c ≤ 4 then a.wellFormed b && decide (f < b) && decide (f ≠ 6)
    else a.wellFormed b && decide (f < b)

theorem wellFormed_build (hr : r ∈ optab) (b : Nat) (a : Addr) (f : Nat) : (r.build a f).wellFormed b = r.operandsOk b a f :=
  (List.map_inj_left (f := fun r : OpRow => (r.build a f).wellFormed b) (g := fun r => r.operandsOk b a f)).1 rfl r hr

/-- F = 6 after the C of an arithmetic operator is the floating-point row, which stands first (30_encoding.md R92). -/
theorem find_floating (h1 : 1 ≤ c) (h4 : c ≤ 4) (hr : optab.find? (OpRow.matches c 6) = some r) : r.sel = some 6 := by
  suffices h : (optab.find? (OpRow.matches c 6)).bind OpRow.sel = some 6 by rwa [hr] at h
  interval_cases c <;> rfl

/-! #### Which C and F a row holds for -/

/-- How many values of F the rows of an operation code tell apart; none where F is an operand (30_encoding.md R90, R91). -/
def fCount (c : Nat) : Option Nat :=
  if c = 5 then some 3
  else if c = 6 then some 6
  else if c = 39 then some 10
  else if 40 ≤ c ∧ c ≤ 47 then some 6
  else if 48 ≤ c ∧ c ≤ 55 then some 4
  else if 64 ≤ c then some 0
  else none

theorem fCount_of_le (h : 64 ≤ c) : fCount c = some 0 := by
  rw [fCount, if_neg (by omega), if_neg (by omega), if_neg (by omega), if_neg (by omega), if_neg (by omega), if_pos h]

/-- The selecting F of the rows of an operation code, in the order of the table. -/
def selectors (c : Nat) : List (Option Nat) := (optab.filter fun r => r.c == c).map OpRow.sel

theorem optab_c_lt : ∀ r ∈ optab, r.c < 64 := by decide +kernel

/-- Where F is an operand, one row leaves it open. -/
theorem none_mem_selectors (h : fCount c = none) : none ∈ selectors c := by
  have htable : ∀ c < 64, fCount c = none → none ∈ selectors c := by decide +kernel
  exact htable c (Nat.lt_of_not_le fun hc => by cases h.symm.trans (fCount_of_le hc)) h

/-- Where F selects, the rows of an operation code have the F from 0 on, each once. -/
theorem selectors_eq_range {n : Nat} (h : fCount c = some n) : selectors c = (List.range n).map some := by
  have htable : ∀ c < 64, ∀ n ∈ fCount c, selectors c = (List.range n).map some := by decide +kernel
  by_cases hc : c < 64
  · exact htable c hc n h
  · obtain rfl : 0 = n := Option.some.inj ((fCount_of_le (by omega)).symm.trans h)
    rw [List.range_zero, List.map_nil, selectors, List.map_eq_nil_iff, List.filter_eq_nil_iff]
    intro r hr
    have := optab_c_lt r hr
    simp only [beq_iff_eq]
    omega

theorem exists_matches_iff_mem : (∃ r ∈ optab, r.matches c f = true) ↔ none ∈ selectors c ∨ some f ∈ selectors c := by
  simp only [OpRow.matches_iff, selectors, List.mem_map, List.mem_filter, beq_iff_eq, ← exists_or, ← and_or_left, and_assoc]

/-- A row holds for C and F exactly where F is an operand or one of the values told apart (30_encoding.md R88, R91). -/
theorem exists_matches_iff : (∃ r ∈ optab, r.matches c f = true) ↔ ∀ n, fCount c = some n → f < n := by
  rw [exists_matches_iff_mem]
  cases h : fCount c with
  | none => simp [none_mem_selectors h]
  | some n => simp [selectors_eq_range h]

theorem not_exists_matches_iff : (¬ ∃ r ∈ optab, r.matches c f = true) ↔ ∃ n, fCount c = some n ∧ n ≤ f := by
  rw [exists_matches_iff]
  push Not
  rfl

/-- The values of F past those told apart, as the list of 30_encoding.md R91. -/
theorem exists_fCount_le_iff :
    (∃ n, fCount c = some n ∧ n ≤ f) ↔
      (c = 5 ∧ 3 ≤ f) ∨ (c = 6 ∧ 6 ≤ f) ∨ (c = 39 ∧ 10 ≤ f) ∨ (40 ≤ c ∧ c ≤ 47 ∧ 6 ≤ f) ∨ (48 ≤ c ∧ c ≤ 55 ∧ 4 ≤ f) ∨ 64 ≤ c := by
  unfold fCount
  split_ifs <;> simp <;> omega

/-! #### Decoding -/

theorem decode_eq_ok : decode w = .ok i ↔ ∃ r, optab.find? (OpRow.matches w.b5 w.b4) = some r ∧ r.build w.addr w.b4 = i := by
  unfold decode
  cases optab.find? (OpRow.matches w.b5 w.b4) <;> simp

theorem decode_eq_error {e : DecodeError} :
    decode w = .error e ↔ (¬ ∃ r ∈ optab, r.matches w.b5 w.b4 = true) ∧ e = .illegal w.b5 w.b4 := by
  rw [← List.find?_isSome, decode]
  cases optab.find? (OpRow.matches w.b5 w.b4) <;> simp [eq_comm]

/-- A word decodes where a row holds for its C and F (30_encoding.md R88). -/
theorem exists_decode (hr : r ∈ optab) (hm : r.matches w.b5 w.b4 = true) : ∃ i, decode w = .ok i := by
  obtain ⟨q, hq⟩ := Option.isSome_iff_exists.1 (List.find?_isSome.2 ⟨r, hr, hm⟩)
  exact ⟨_, decode_eq_ok.2 ⟨q, hq, rfl⟩⟩

/-- The row that a word selects has the word's C, and its F where it has one, so encoding gives the word back. -/
theorem encode_of_decode (h : decode w = .ok i) : encode i = w := by
  obtain ⟨r, hfind, rfl⟩ := decode_eq_ok.1 h
  obtain ⟨hc, hsel⟩ := OpRow.matches_iff.1 (List.find?_some hfind)
  rw [encode_build (List.mem_of_find?_eq_some hfind), hc]
  obtain hsel | hsel := hsel <;> rw [hsel] <;> rfl

/-- A word of bytes decodes to a well-formed instruction: an arithmetic row with F = 6 is never the one found. -/
theorem wellFormed_of_decode (h : decode w = .ok i) (hw : Machine.wordOk b w) : i.wellFormed b = true := by
  obtain ⟨r, hfind, rfl⟩ := decode_eq_ok.1 h
  obtain ⟨hc, -⟩ := OpRow.matches_iff.1 (List.find?_some hfind)
  obtain ⟨h1, h2, h3, h4, -⟩ := hw
  have haddr : w.addr.wellFormed b = true := by simp [Addr.wellFormed, Word.addr, h1, h2, h3]
  rw [wellFormed_build (List.mem_of_find?_eq_some hfind), OpRow.operandsOk]
  cases hsel : r.sel with
  | some g => exact haddr
  | none =>
    have h6 : 1 ≤ r.c ∧ r.c ≤ 4 → w.b4 ≠ 6 := by
      rintro ⟨hlo, hhi⟩ hf
      have hfloat := find_floating (r := r) (c := w.b5) (by omega) (by omega) (hf ▸ hfind)
      simp [hsel] at hfloat
    split <;> simp_all

/-! #### Decoding an encoding, family by family -/

/-- With F other than 6 the search passes by the floating-point row. -/
theorem decode_encode_arith (k : ArithKind) (a : Addr) (hf : f ≠ 6) : decode (encode (.arith k a f)) = .ok (.arith k a f) := by
  have h6 : (6 == f) = false := by simpa using hf.symm
  cases k <;>
    simp [Instr.arith, encode, decode, Addr.word, Word.addr, optab, optabArith, OpRow.matches, OpRow.operandF, OpRow.selectedBy, h6]

theorem decode_encode (h : ∀ k a, i ≠ .arith k a 6) : decode (encode i) = .ok i := by
  induction i using Machine.Instr.family_induction with
  | h_load r neg a f => rcases r with _ | _ | n <;> [skip; skip; cases n] <;> cases neg <;> rfl
  | h_store r a f => rcases r with (_ | _ | n) | _ | _ <;> [skip; skip; cases n; skip; skip] <;> rfl
  | h_arith k a f => exact decode_encode_arith k a fun hf => h k a (hf ▸ rfl)
  | h_floating k a => cases k <;> rfl
  | h_enter r neg a => rcases r with _ | _ | n <;> [skip; skip; cases n] <;> cases neg <;> rfl
  | h_increase r neg a => rcases r with _ | _ | n <;> [skip; skip; cases n] <;> cases neg <;> rfl
  | h_compare r a f => rcases r with _ | _ | n <;> [skip; skip; cases n] <;> rfl
  | h_ciJump c a => cases c <;> rfl
  | h_regJump r c a => rcases r with _ | _ | n <;> [skip; skip; cases n] <;> cases c <;> rfl
  | h_shift k a => cases k <;> rfl
  | h_nop a f => rfl
  | h_num a => rfl
  | h_char a => rfl
  | h_hlt a => rfl
  | h_move a f => rfl
  | h_jbus a f => rfl
  | h_ioc a f => rfl
  | h_inp a f => rfl
  | h_out a f => rfl
  | h_jred a f => rfl
  | h_jmp a => rfl
  | h_jsj a => rfl
  | h_jov a => rfl
  | h_jnov a => rfl

/-- F = 6 on an arithmetic operator belongs to the floating-point row (30_encoding.md R92). -/
theorem not_wellFormed_arith_six (b : Nat) (k : ArithKind) (a : Addr) : (Instr.arith k a 6).wellFormed b = false := by
  cases k <;> exact Bool.and_false _

/-! #### The F byte of a written line -/

theorem eq_of_name_eq {q : OpRow} (hq : q ∈ optab) (hr : r ∈ optab) (h : q.name = r.name) : q = r :=
  List.inj_on_of_nodup_map optab_names_nodup hq hr h

section

variable {written : Option Nat} (h : r.fByte written = some f)

include h

/-- The F byte of a line is one that its row holds for. -/
theorem OpRow.matches_of_fByte : r.matches r.c f = true :=
  OpRow.matches_iff.2 ⟨rfl, (OpRow.fByte_eq_some.1 h).symm.imp And.left And.left⟩

theorem OpRow.fByte_of_selecting {g : Nat} (hg : r.sel = some g) : f = g := by
  obtain ⟨hsel, -⟩ | ⟨hnone, -⟩ := OpRow.fByte_eq_some.1 h
  · exact Option.some.inj (hsel.symm.trans hg)
  · cases hnone.symm.trans hg

theorem OpRow.fByte_of_operand (hnone : r.sel = none) : f = written.getD r.normalF := by
  simpa [hnone, eq_comm] using OpRow.fByte_eq_some.1 h

end

/-- A line gives an F byte unless it writes an F after an operator told apart by F (30_encoding.md R99, log 28). -/
theorem OpRow.fByte_isSome_iff {written : Option Nat} : (∃ g, r.fByte written = some g) ↔ r.sel = none ∨ written = none := by
  simp only [OpRow.fByte_eq_some]
  cases r.sel <;> simp

end Sys2Proof

namespace Sys2Proof.Machine

variable {s : State} {a : Addr} {i : Instr}

/-! #### The fetch -/

/-- The turn of a running processor is a fetch, one processor step later for the units (30_encoding.md R97). -/
theorem step_eq_withInstruction (hdue : s.due = none) (hrun : s.halted = false) :
    step s = withInstruction s.tick fun i => exec i s.tick := by
  rw [step, cycle, hdue]
  show processorStep exec s.tick = _
  rw [processorStep, State.tick_halted, hrun, if_neg Bool.false_ne_true]

theorem withInstruction_badCell {k : Instr → Result} (hp : 3999 < s.pc) :
    withInstruction s k = .fault (.memoryAddress s.pc s.pc) := by
  rw [withInstruction, withCell_fault (.inr (by omega))]

theorem withInstruction_owned {k : Instr → Result} {c u : Nat} (hp : s.pc ≤ 3999) (hh : s.hazard false s.pc 1 = some (c, u)) :
    withInstruction s k = .fault (.ioHazard s.pc c u) := by
  rw [withInstruction, withCell_pass hp, withoutHazard_fault hh]

theorem withInstruction_illegal {k : Instr → Result} {c f : Nat} (hp : s.pc ≤ 3999) (hh : s.hazard false s.pc 1 = none)
    (hd : decode (s.cell s.pc) = .error (.illegal c f)) : withInstruction s k = .fault (.illegalInstruction s.pc c f) := by
  rw [withInstruction, withCell_pass hp, withoutHazard_pass hh, hd]

/-! #### The checks on I and M -/

theorem withM_badIndex {k : Int → Result} (h : 6 < a.ix) : withM a s k = .fault (.invalidIndex s.pc a.ix) := by
  rw [withM, if_pos h]

theorem withM_overflow {k : Int → Result} (hi : a.ix ≤ 6) (hm : s.b ^ 2 ≤ (addrSum a s).natAbs) :
    withM a s k = .fault (.indexedAddressOverflow s.pc (addrSum a s)) := by
  rw [withM, if_neg (by omega), if_pos hm]

/-- An instruction has at most one address part, so to begin with the checks on some address part of its own is to begin with them. -/
theorem exists_withM {a' : Addr} {k : Int → Result} (h : i.address = some a) (ha : i.address = some a')
    (hx : exec i s = withM a' s k) : ∃ k, exec i s = withM a s k := by
  obtain rfl : a' = a := Option.some.inj (ha.symm.trans h)
  exact ⟨k, hx⟩

/-- An instruction that uses M begins with the checks on it (30_encoding.md R84, R93). -/
theorem exec_eq_withM (h : i.address = some a) (s : State) : ∃ k, exec i s = withM a s k := by
  induction i using Instr.family_induction with
  | h_load r neg a' f => exact exists_withM h (Instr.address_load r neg a' f) (by rw [exec_load, loadInto, withOperand])
  | h_store r a' f => exact exists_withM h (Instr.address_store r a' f) (by rw [exec_store, storeFrom])
  | h_arith k a' f => exact exists_withM h (Instr.address_arith k a' f) (by rw [exec_arith, withOperand])
  | h_floating k a' => exact exists_withM h (Instr.address_floating k a') (by rw [exec_floating, floatingStop])
  | h_enter r neg a' => exact exists_withM h (Instr.address_enter r neg a') (by rw [exec_enter, enter])
  | h_increase r neg a' => exact exists_withM h (Instr.address_increase r neg a') (by rw [exec_increase, increase])
  | h_compare r a' f => exact exists_withM h (Instr.address_compare r a' f) (by rw [exec_compare, compareReg, withOperand])
  | h_ciJump c a' => exact exists_withM h (Instr.address_ciJump c a') (by rw [exec_ciJump, jumpOnCi, jumpWhen])
  | h_regJump r c a' => exact exists_withM h (Instr.address_regJump r c a') (by rw [exec_regJump, jumpOnReg, jumpWhen])
  | h_shift k a' => exact exists_withM h (Instr.address_shift k a') (by rw [exec_shift, withCount])
  | h_nop _ _ | h_num _ | h_char _ => cases h
  | h_hlt a' => exact exists_withM h rfl (by rw [exec, execHlt])
  | h_move a' f => exact exists_withM h rfl (by rw [exec, execMove])
  | h_jbus a' f => exact exists_withM h rfl (by rw [exec, execJbus, jumpOnUnit])
  | h_ioc a' f => exact exists_withM h rfl (by rw [exec, execIoc])
  | h_inp a' f => exact exists_withM h rfl (by rw [exec, execInp])
  | h_out a' f => exact exists_withM h rfl (by rw [exec, execOut])
  | h_jred a' f => exact exists_withM h rfl (by rw [exec, execJred, jumpOnUnit])
  | h_jmp a' => exact exists_withM h rfl (by rw [exec, execJmp, jumpWhen])
  | h_jsj a' => exact exists_withM h rfl (by rw [exec, execJsj])
  | h_jov a' => exact exists_withM h rfl (by rw [exec, execJov, jumpWhen])
  | h_jnov a' => exact exists_withM h rfl (by rw [exec, execJnov, jumpWhen])

end Sys2Proof.Machine

section

open Sys2Proof Sys2Proof.Machine

/-- Settles O1: the only terms that the search reads otherwise are the arithmetic operators with F = 6, which are not well-formed. -/
theorem decodeOfEncode : Obligations.DecodeOfEncode := by
  intro b i hi
  refine decode_encode fun k a hk => ?_
  rw [hk, not_wellFormed_arith_six] at hi
  exact Bool.false_ne_true hi

/-- Settles O2: both halves are read off the row that the search finds. -/
theorem encodeOfDecode : Obligations.EncodeOfDecode :=
  fun _ _ _ h => ⟨encode_of_decode h, wellFormed_of_decode h⟩

/-- Settles O3: no row holds for C and F exactly where F is past the values that the rows of C tell apart (`fCount`). -/
theorem illegalWords : Obligations.IllegalWords :=
  fun _ => ⟨decode_eq_error.trans <| (and_iff_left rfl).trans <| not_exists_matches_iff.trans exists_fCount_le_iff,
    fun _ he => (decode_eq_error.1 he).2⟩

/-- Settles O4: a line is the word of the row of its name (`assemble_eq_some`); that row holds for the word, which so decodes, and
decoding loses nothing (`encode_of_decode`). -/
theorem notationDenotesWord : Obligations.NotationDenotesWord := by
  intro b name sign aa ix f hb haa
  refine ⟨fun w hw => ?_, fun ⟨w, hw⟩ => ?_, ?_⟩
  · obtain ⟨r, hr, rfl⟩ := assemble_isSome_name hw
    obtain ⟨g, hg, rfl⟩ := (assemble_eq_some hr).1 hw
    obtain ⟨i, hi⟩ := exists_decode (w := (Addr.make b sign aa ix).word g r.c) hr (OpRow.matches_of_fByte hg)
    refine ⟨rfl, Nat.div_lt_of_lt_mul (by rwa [← sq]), Nat.mod_lt _ hb, Nat.div_add_mod' aa b, rfl,
      ⟨i, hi, encode_of_decode hi⟩, fun q hq hname => ?_⟩
    obtain rfl : q = r := eq_of_name_eq hq hr hname
    exact ⟨rfl, fun _ hsel => OpRow.fByte_of_selecting hg hsel, fun hsel => OpRow.fByte_of_operand hg hsel⟩
  · obtain ⟨r, hr, rfl⟩ := assemble_isSome_name hw
    obtain ⟨g, hg, -⟩ := (assemble_eq_some hr).1 hw
    exact ⟨r, hr, rfl, OpRow.fByte_isSome_iff.1 ⟨g, hg⟩⟩
  · rintro ⟨r, hr, rfl, hrow⟩
    obtain ⟨g, hg⟩ := OpRow.fByte_isSome_iff.2 hrow
    exact ⟨_, (assemble_eq_some hr).2 ⟨g, hg, rfl⟩⟩

/-- Settles O10: the fetch stops at the first of its checks that fails; time passing for the units changes none of them. -/
theorem fetchFaults : Obligations.FetchFaults := by
  intro s hdue hrun
  rw [step_eq_withInstruction hdue hrun]
  exact ⟨fun hp => withInstruction_badCell (s := s.tick) hp,
    fun hp c u hh => withInstruction_owned (s := s.tick) hp ((hazard_tick s false s.pc 1).trans hh),
    fun hp hh c f hd => withInstruction_illegal (s := s.tick) hp ((hazard_tick s false s.pc 1).trans hh) hd⟩

/-- Settles O12: an instruction that has an address begins with `withM`; the others do not look at it. -/
theorem addressChecks : Obligations.AddressChecks := by
  refine ⟨fun i a s ha => ?_, fun a a' f f' s => ⟨rfl, rfl, rfl⟩⟩
  obtain ⟨k, hk⟩ := exec_eq_withM ha s
  rw [hk]
  exact ⟨withM_badIndex, withM_overflow⟩

/-- Settles O5: the search evaluates on each word. -/
theorem sampleWords : Obligations.SampleWords :=
  ⟨rfl, rfl, rfl, rfl, rfl, rfl, rfl, rfl, rfl, rfl, rfl, rfl, rfl, rfl, rfl⟩

/-- Settles O8: `step_eq_exec`, and the state after one processor step written out. -/
theorem stepRunsDecoded : Obligations.StepRunsDecoded :=
  fun _ _ hdue hrun hpc hh hd => ⟨step_eq_exec hdue hrun hpc hh hd, rfl⟩

/-- Settles O13: one case for each value of I. -/
theorem indexedAddress : Obligations.IndexedAddress := by
  intro a s
  constructor
  · intro hix
    rw [addrSum, hix]
    exact add_zero _
  · intro k n hk hix
    rw [addrSum, hix]
    simp only [List.mem_cons, Prod.mk.injEq, List.not_mem_nil, or_false] at hk
    obtain ⟨rfl, rfl⟩ | ⟨rfl, rfl⟩ | ⟨rfl, rfl⟩ | ⟨rfl, rfl⟩ | ⟨rfl, rfl⟩ | ⟨rfl, rfl⟩ := hk <;> rfl

end

/-! ### Loading (O18)

A load is its operand's checks and `putLoaded`. A register that can take the word then shows just that word: for an index register, a
word with a magnitude below `b^2` is the one that its last two bytes make. -/

namespace Sys2Proof.Machine

variable {s : State} {b : Nat} {r : Reg} {v w : Word}

/-! #### Words that two bytes hold, and the opposite sign -/

/-- A word is known by its sign and magnitude. -/
theorem eq_of_sign_of_wordMag (hv : wordOk b v) (hw : wordOk b w) (hsign : v.sign = w.sign) (hmag : wordMag b v = wordMag b w) :
    v = w := by
  rw [← wordOfMag_mag hv, ← wordOfMag_mag hw, hsign, hmag]

/-- An index register that takes a word with a magnitude below `b^2` shows that word again (10_state.md R23). -/
theorem shortAsWord_shortOfMag (hw : wordOk b w) (hlt : wordMag b w < b ^ 2) :
    shortAsWord (shortOfMag b w.sign (wordMag b w)) = w := by
  have hb : 0 < b := Nat.zero_lt_of_lt hw.1
  refine eq_of_sign_of_wordMag (wordOk_shortAsWord hb (shortOk_ofMag hb _ _)) hw rfl ?_
  rw [wordMag_shortAsWord, shortMag_ofMag _ hlt]

theorem negateIf_eq (neg : Bool) (w : Word) : negateIf neg w = { w with sign := if neg then w.sign.neg else w.sign } := by
  cases neg <;> rfl

@[simp] theorem wordMag_negateIf (b : Nat) (neg : Bool) (w : Word) : wordMag b (negateIf neg w) = wordMag b w := by
  cases neg <;> rfl

theorem wordVal_negateIf (b : Nat) (neg : Bool) (w : Word) :
    wordVal b (negateIf neg w) = if neg then -(wordVal b w) else wordVal b w := by
  cases neg with
  | false => rfl
  | true => exact Sign.apply_neg w.sign (wordMag b w)

/-! #### A word put into a register -/

/-- Only an index register can be too small. -/
theorem fitsRegister_iff : fitsRegister b r w ↔ ∀ n, r = .i n → wordMag b w < b ^ 2 := by
  cases r <;> simp [fitsRegister]

@[simp] theorem State.regWord_advance (s : State) (r : Reg) : s.advance.regWord r = s.regWord r := by
  cases r <;> rfl

theorem regWord_putRegister (hw : wordOk s.b w) (hfit : fitsRegister s.b r w) : (putRegister r w s).regWord r = w := by
  cases r with
  | a => rfl
  | x => rfl
  | i n =>
    show shortAsWord ((s.setIndex n _).index n) = w
    rw [State.index_setIndex_same, shortAsWord_shortOfMag hw hfit]

@[simp] theorem cell_putRegister (r : Reg) (w : Word) (s : State) (n : Nat) : (putRegister r w s).cell n = s.cell n := by
  cases r <;> rfl

theorem onlyRegister_putRegister (r : Reg) (w : Word) (s : State) : onlyRegister r s (putRegister r w s).advance := by
  cases r with
  | a => rfl
  | x => rfl
  | i n => exact ⟨fun k hk => State.index_setIndex_other s _ hk, rfl⟩

theorem putLoaded_overflow (n : Idx) (h : s.b ^ 2 ≤ wordMag s.b w) :
    putLoaded (.i n) w s = .fault (.indexOverflow s.pc (wordVal s.b w)) := by
  rw [putLoaded, if_pos h]

/-- A load whose checks pass puts the field, or its negative, into the register (40_loading.md R110, R119). -/
theorem exec_load_pass {a : Addr} {f c : Nat} (h : operandOk false a f c s) (r : Reg) (neg : Bool) :
    exec (.load r neg a f) s = putLoaded r (negateIf neg (loadField (s.cell c) f)) s := by
  rw [exec_load, loadInto, withOperand_pass h]

end Sys2Proof.Machine

section

open Sys2Proof Sys2Proof.Machine

/-- Settles O18: with the checks passed a load is `putLoaded`, which puts a word that fits and stops at one that does not. -/
theorem loadInstructions : Obligations.LoadInstructions := by
  intro r neg a f c s hb hok hcell
  have hfield : wordOk s.b (negateIf neg (loadField (s.cell c) f)) :=
    wordOk_negateIf neg (wordOk_loadField (by omega) f hcell)
  rw [exec_load_pass hok]
  constructor
  · intro hsmall
    have hfit : fitsRegister s.b r (negateIf neg (loadField (s.cell c) f)) := fitsRegister_iff.2 (by rwa [wordMag_negateIf])
    refine ⟨_, putLoaded_next.2 ⟨hfit, rfl⟩, onlyRegister_putRegister r _ s, cell_putRegister r _ s, ?_⟩
    rw [State.regWord_advance, regWord_putRegister hfield hfit, negateIf_eq]
  · rintro ⟨n, rfl⟩ hlarge
    rw [putLoaded_overflow n (by rwa [wordMag_negateIf]), wordVal_negateIf]

end

/-! ### Storing (O19)

A store changes one cell of memory and moves the location counter; the word stored is a register as a word, rJ as a positive short, or
plus zero. -/

namespace Sys2Proof.Machine

variable {s : State}

theorem State.cell_setCell_other (s : State) {n c : Nat} (w : Word) (h : n ≠ c) : (s.setCell c w).cell n = s.cell n :=
  Memory.read_write_other s.mem w h

@[simp] theorem State.cell_advance (s : State) (n : Nat) : s.advance.cell n = s.cell n := rfl

/-- What STJ stores is rJ with the sign +, its two bytes on the right (41_storing.md R149). -/
theorem storedWord_j (hb : 0 < s.b) (hj : s.rJ < s.b ^ 2) :
    (s.storedWord .j).sign = .plus ∧ wordMag s.b (s.storedWord .j) = s.rJ ∧ wordOk s.b (s.storedWord .j) := by
  refine ⟨rfl, ?_, wordOk_shortAsWord hb (shortOk_ofMag hb .plus s.rJ)⟩
  calc wordMag s.b (shortAsWord (shortOfMag s.b .plus s.rJ))
      = shortMag s.b (shortOfMag s.b .plus s.rJ) := wordMag_shortAsWord s.b _
    _ = s.rJ := shortMag_ofMag .plus hj

end Sys2Proof.Machine

section

open Sys2Proof Sys2Proof.Machine

/-- Settles O19: a store whose checks pass writes cell M and goes on (`storeFrom_next`); memory gives back what was written and keeps
the other cells. -/
theorem storeInstructions : Obligations.StoreInstructions := by
  refine ⟨fun r a f c s hok => ?_, fun s => ⟨rfl, rfl, fun _ => rfl, rfl, fun hb hj => storedWord_j (by omega) hj⟩⟩
  refine ⟨_, (exec_store r a f s).trans (storeFrom_next.2 ⟨c, hok, rfl⟩), rfl, ?_, fun n hn => ?_⟩
  · rw [State.cell_advance, State.cell_setCell_same]
  · rw [State.cell_advance, State.cell_setCell_other s _ hn]

end

/-! ### Arithmetic (O20 to O24)

`addLaw_addResult` is the addition law, which the six instructions that add share. A product and a dividend are ten-byte numbers: their
two halves are the quotient and the remainder by the word size. -/

namespace Sys2Proof.Machine

variable {s : State} {a : Addr} {b : Nat} {v w : Word} {n : Int}

/-! #### The addition law -/

/-- A zero has no byte but zeros, whatever its sign (00_scope.md R8). -/
theorem wordOfMag_zero (b : Nat) (sign : Sign) : wordOfMag b sign 0 = ⟨sign, 0, 0, 0, 0, 0⟩ := by
  simp [wordOfMag]

theorem addResult_zero (h : wordVal b w + n = 0) : addResult b w n = wordOfMag b w.sign 0 := if_pos h

theorem addResult_fits (h0 : wordVal b w + n ≠ 0) (h : (wordVal b w + n).natAbs < b ^ 5) :
    addResult b w n = wordOfMag b (Sign.ofInt (wordVal b w + n)) (wordVal b w + n).natAbs :=
  (if_neg h0).trans (if_pos h)

theorem addResult_carries (h0 : wordVal b w + n ≠ 0) (h : b ^ 5 ≤ (wordVal b w + n).natAbs) :
    addResult b w n = wordOfMag b (Sign.ofInt (wordVal b w + n)) ((wordVal b w + n).natAbs - b ^ 5) :=
  (if_neg h0).trans (if_neg h.not_gt)

theorem addOverflows_iff : addOverflows b w n = true ↔ b ^ 5 ≤ (wordVal b w + n).natAbs := decide_eq_true_iff

theorem addOverflows_eq_false (h : (wordVal b w + n).natAbs < b ^ 5) : addOverflows b w n = false :=
  Bool.eq_false_iff.2 (mt addOverflows_iff.1 h.not_ge)

/-- Two numbers of a word have a sum below `2 W`, so what is left after the carry is again the magnitude of a word
(42_arithmetic.md R166). -/
theorem addLaw_addResult (hb : 0 < b) (hw : wordOk b w) (hn : n.natAbs < b ^ 5) (ov : Bool) :
    addLaw b w (addResult b w n) n ov (ov || addOverflows b w n) := by
  have hw5 : (wordVal b w).natAbs < b ^ 5 := wordOk_val_lt hw
  refine ⟨wordOk_addResult hb w n, fun hzero => ?_, fun hne hfits => ?_, fun hcarry => ?_⟩
  · rw [addResult_zero hzero, wordOfMag_zero, addOverflows_eq_false (by omega), Bool.or_false]
    exact ⟨rfl, rfl⟩
  · rw [addResult_fits hne hfits, wordVal_ofMag _ hfits, Sign.apply_ofInt, addOverflows_eq_false hfits, Bool.or_false]
    exact ⟨rfl, rfl⟩
  · rw [addResult_carries (by omega) hcarry, wordMag_ofMag _ (by omega), wordOfMag_sign, addOverflows_iff.2 hcarry, Bool.or_true,
      Nat.sub_add_cancel hcarry]
    exact ⟨rfl, rfl, rfl⟩

/-- An indexed address is a number of two bytes, and so of five. -/
theorem addrSum_natAbs_lt_word (hb : 0 < s.b) (h : addrOk a s) : (addrSum a s).natAbs < s.b ^ 5 :=
  h.2.trans_le (Nat.pow_le_pow_right hb (by decide))

theorem natAbs_negated_if (neg : Bool) (n : Int) : (if neg then -n else n).natAbs = n.natAbs := by
  cases neg
  · rfl
  · exact Int.natAbs_neg n

/-! #### Multiplication and division -/

theorem productSign_eq_plus_iff {x y : Sign} : productSign x y = .plus ↔ x = y := by
  simp [productSign]

/-- Two words hold a ten-byte number as its quotient and remainder by the word size (42_arithmetic.md R163). -/
theorem wordMag_halves {p : Nat} (hb : 0 < b) (hp : p < b ^ 5 * b ^ 5) (x y : Sign) :
    wordMag b (wordOfMag b x (p / wordSize b)) * b ^ 5 + wordMag b (wordOfMag b y (p % wordSize b)) = p := by
  rw [wordSize, wordMag_ofMag x (Nat.div_lt_of_lt_mul hp), wordMag_ofMag y (Nat.mod_lt p (Nat.pow_pos hb)), Nat.div_add_mod']

theorem divide_of_overflow (h : wordMag s.b v = 0 ∨ wordMag s.b v ≤ wordMag s.b s.rA) :
    divide v s = { s with rA := s.freeWord 0, rX := s.freeWord 1, ov := true, draws := s.draws + 2 } := by
  obtain ⟨-, heq⟩ | ⟨hno, -⟩ := divide_cases v s
  · exact heq
  · exact absurd h hno

/-- The dividend: the ten-byte magnitude of rA and rX (42_arithmetic.md R164). -/
def State.dividend (s : State) : Nat := wordMag s.b s.rA * s.b ^ 5 + wordMag s.b s.rX

theorem divide_of_lt (h : wordMag s.b s.rA < wordMag s.b v) :
    divide v s = { s with
      rA := wordOfMag s.b (productSign s.rA.sign v.sign) (s.dividend / wordMag s.b v)
      rX := wordOfMag s.b s.rA.sign (s.dividend % wordMag s.b v) } := by
  obtain ⟨hover, -⟩ | ⟨-, heq⟩ := divide_cases v s
  · omega
  · exact heq

/-- Where the divisor exceeds rA, the quotient fits a word (42_arithmetic.md R164). -/
theorem dividend_div_lt_word (hX : wordOk s.b s.rX) {d : Nat} (h : wordMag s.b s.rA < d) : s.dividend / d < s.b ^ 5 := by
  refine Nat.div_lt_of_lt_mul ?_
  calc s.dividend
      < wordMag s.b s.rA * s.b ^ 5 + s.b ^ 5 := Nat.add_lt_add_left (wordOk_mag_lt hX) _
    _ = (wordMag s.b s.rA + 1) * s.b ^ 5 := (Nat.succ_mul _ _).symm
    _ ≤ d * s.b ^ 5 := Nat.mul_le_mul_right _ h

/-! #### The floating-point rows -/

theorem exec_floating_pass (h : addrOk a s) (k : ArithKind) :
    exec (.floating k a) s = .fault (.floatingPointNotModelled s.pc (floatingC k)) := by
  rw [exec_floating, floatingStop, withM_pass h]

theorem exists_floatingC {c : Nat} (h1 : 1 ≤ c) (h4 : c ≤ 4) : ∃ k, floatingC k = c := by
  interval_cases c
  · exact ⟨.add, rfl⟩
  · exact ⟨.sub, rfl⟩
  · exact ⟨.mul, rfl⟩
  · exact ⟨.div, rfl⟩

/-- F = 6 selects the floating-point row of an arithmetic C (30_encoding.md R92). -/
theorem decode_floatingC (k : ArithKind) (a : Addr) : decode (a.word 6 (floatingC k)) = .ok (.floating k a) := by
  cases k <;> rfl

end Sys2Proof.Machine

section

open Sys2Proof Sys2Proof.Machine

/-- Settles O20: each of the six adds a number below W to its register (`addLaw_addResult`). -/
theorem additionLaw : Obligations.AdditionLaw := by
  constructor
  · intro a f c s hb hA hcell hok
    have hV : (wordVal s.b (loadField (s.cell c) f)).natAbs < s.b ^ 5 := wordOk_val_lt (wordOk_loadField (by omega) f hcell)
    exact ⟨⟨_, arith_next (k := .add).2 ⟨c, hok, rfl⟩, rfl, addLaw_addResult (by omega) hA hV s.ov⟩,
      ⟨_, arith_next (k := .sub).2 ⟨c, hok, rfl⟩, rfl, addLaw_addResult (by omega) hA (by rwa [Int.natAbs_neg]) s.ov⟩⟩
  · intro neg a s hb hA hX ha
    have hM : (if neg then -(addrSum a s) else addrSum a s).natAbs < s.b ^ 5 := by
      rw [natAbs_negated_if]
      exact addrSum_natAbs_lt_word (by omega) ha
    exact ⟨⟨_, (exec_increase .a neg a s).trans (increase_next.2 ⟨ha, .inl ⟨rfl, rfl⟩⟩), rfl,
        addLaw_addResult (by omega) hA hM s.ov⟩,
      ⟨_, (exec_increase .x neg a s).trans (increase_next.2 ⟨ha, .inr (.inl ⟨rfl, rfl⟩)⟩), rfl,
        addLaw_addResult (by omega) hX hM s.ov⟩⟩

/-- Settles O21: the product of two numbers below W is below `W * W`, and rA and rX hold its halves. -/
theorem multiplyProduct : Obligations.MultiplyProduct := by
  intro a f c s hb hA hcell hok
  have hb0 : 0 < s.b := by omega
  have hproduct : wordMag s.b s.rA * wordMag s.b (loadField (s.cell c) f) < s.b ^ 5 * s.b ^ 5 :=
    Nat.mul_lt_mul'' (wordOk_mag_lt hA) (wordOk_mag_lt (wordOk_loadField hb0 f hcell))
  exact ⟨_, arith_next (k := .mul).2 ⟨c, hok, rfl⟩, rfl, wordMag_halves hb0 hproduct _ _, wordOk_ofMag hb0 _ _,
    wordOk_ofMag hb0 _ _, rfl, productSign_eq_plus_iff⟩

/-- Settles O22: quotient and remainder are numbers of a word, so rA and rX hold them as they are. -/
theorem divideQuotient : Obligations.DivideQuotient := by
  intro a f c s hb hX hok hlt hcell
  have hV : wordMag s.b (loadField (s.cell c) f) < s.b ^ 5 := wordOk_mag_lt (wordOk_loadField (by omega) f hcell)
  have hrem : s.dividend % wordMag s.b (loadField (s.cell c) f) < wordMag s.b (loadField (s.cell c) f) := Nat.mod_lt _ (by omega)
  refine ⟨_, arith_next (k := .div).2 ⟨c, hok, congrArg State.advance (divide_of_lt hlt).symm⟩, rfl, ?_, ?_, rfl,
    productSign_eq_plus_iff⟩
  · show wordMag s.b (wordOfMag s.b _ _) * _ + wordMag s.b (wordOfMag s.b _ _) = s.dividend
    rw [wordMag_ofMag _ (dividend_div_lt_word hX hlt), wordMag_ofMag _ (hrem.trans hV), Nat.div_add_mod']
  · show wordMag s.b (wordOfMag s.b _ _) < _
    rwa [wordMag_ofMag _ (hrem.trans hV)]

/-- Settles O23: an overflowing division turns OV on and draws two words; a drawn word is a word whatever its free values are. -/
theorem divideOverflow : Obligations.DivideOverflow := by
  intro a f c s hb hok hover
  exact ⟨_, arith_next (k := .div).2 ⟨c, hok, congrArg State.advance (divide_of_overflow hover).symm⟩, rfl,
    wordOk_freeWord s 0 (by omega), wordOk_freeWord s 1 (by omega)⟩

/-- Settles O24: past the checks on M a floating-point row is its fault, and a word is the word of its address part, F and C. -/
theorem floatingPointStops : Obligations.FloatingPointStops := by
  intro a s ha
  refine ⟨exec_floating_pass ha .add, exec_floating_pass ha .sub, exec_floating_pass ha .mul, exec_floating_pass ha .div, ?_⟩
  intro w hF h1 h4
  obtain ⟨k, hC⟩ := exists_floatingC h1 h4
  have hw : w = w.addr.word 6 (floatingC k) := by rw [hC, ← hF]; rfl
  exact ⟨k, (congrArg decode hw).trans (decode_floatingC k w.addr)⟩

end

/-! ### Address transfer (O25, O26)

An entered register is put as a word: M is a number of two bytes, so it fits every register (`enterReg_eq_putRegister`). The sign rule
of ENTER and that of ADDTOINDEX are one, a number with its own sign and a zero with a given one (`Sign.apply_ite_ofInt`). -/

namespace Sys2Proof.Machine

variable {s : State} {a : Addr} {m : Nat}

/-! #### The sign of a zero -/

/-- Whatever sign a zero is given, the value is the number. -/
theorem Sign.apply_ite_ofInt (sign : Sign) (v : Int) : (if v = 0 then sign else Sign.ofInt v).apply v.natAbs = v := by
  split
  next hzero => rw [hzero, Int.natAbs_zero, Sign.apply_zero]
  next => exact Sign.apply_ofInt v

theorem addrSign_apply (a : Addr) (v : Int) : (addrSign a v).apply v.natAbs = v := Sign.apply_ite_ofInt a.sign v

theorem addrSign_zero (a : Addr) : addrSign a 0 = a.sign := if_pos rfl

theorem Sign.apply_negated_if (neg : Bool) (sign : Sign) (m : Nat) :
    (if neg then sign.neg else sign).apply m = if neg then -(sign.apply m) else sign.apply m := by
  cases neg with
  | false => rfl
  | true => exact Sign.apply_neg sign m

/-! #### A number entered into a register -/

theorem enterReg_eq_putRegister (r : Reg) (sign : Sign) (hm : m < s.b ^ 5) :
    enterReg r sign m s = putRegister r (wordOfMag s.b sign m) s := by
  cases r with
  | a => rfl
  | x => rfl
  | i n => rw [enterReg, putRegister, wordOfMag_sign, wordMag_ofMag sign hm]

/-- A word of a magnitude below `b^2` fits every register (10_state.md R23). -/
theorem fitsRegister_wordOfMag (hb : 0 < s.b) (r : Reg) (sign : Sign) (hm : m < s.b ^ 2) :
    fitsRegister s.b r (wordOfMag s.b sign m) :=
  fitsRegister_iff.2 fun _ _ => (wordMag_ofMag sign (hm.trans_le (Nat.pow_le_pow_right hb (by decide)))).trans_lt hm

@[simp] theorem b_putRegister (r : Reg) (w : Word) (s : State) : (putRegister r w s).b = s.b := by
  cases r <;> rfl

theorem regVal_putRegister {r : Reg} {w : Word} (hw : wordOk s.b w) (hfit : fitsRegister s.b r w) :
    (putRegister r w s).advance.regVal r = wordVal s.b w := by
  change wordVal (putRegister r w s).b ((putRegister r w s).advance.regWord r) = _
  rw [b_putRegister, State.regWord_advance, regWord_putRegister hw hfit]

/-! #### A number added to an index register -/

theorem onlyRegister_setIndex (s : State) (n : Idx) (h : Short) : onlyRegister (.i n) s (s.setIndex n h).advance :=
  ⟨fun _ hk => State.index_setIndex_other s h hk, rfl⟩

theorem addToIndex_overflow {n : Idx} {v : Int} (h : s.b ^ 2 ≤ (shortVal s.b (s.index n) + v).natAbs) :
    addToIndex n v s = .fault (.indexOverflow s.pc (shortVal s.b (s.index n) + v)) :=
  if_pos h

/-- INCi and DECi past the checks on M are ADDTOINDEX (43_address_transfer.md R213). -/
theorem exec_increase_index_pass (h : addrOk a s) (n : Idx) (neg : Bool) :
    exec (.increase (.i n) neg a) s = addToIndex n (if neg then -(addrSum a s) else addrSum a s) s := by
  rw [exec_increase, increase, withM_pass h]

end Sys2Proof.Machine

section

open Sys2Proof Sys2Proof.Machine

/-- Settles O25: the register shows the word of M's magnitude, which fits it, with the sign that ENT or ENN gives. -/
theorem enterInstructions : Obligations.EnterInstructions := by
  intro r neg a s hb ha
  have hb0 : 0 < s.b := by omega
  have hword : (addrSum a s).natAbs < s.b ^ 5 := addrSum_natAbs_lt_word hb0 ha
  refine ⟨_, (exec_enter r neg a s).trans (enter_next.2 ⟨ha, rfl⟩), ?_⟩
  rw [enterReg_eq_putRegister r _ hword]
  generalize hsign : (if neg then (addrSign a (addrSum a s)).neg else addrSign a (addrSum a s)) = sign
  have hok : wordOk s.b (wordOfMag s.b sign (addrSum a s).natAbs) := wordOk_ofMag hb0 _ _
  have hfit := fitsRegister_wordOfMag hb0 r sign ha.2
  refine ⟨onlyRegister_putRegister r _ s, cell_putRegister r _ s, ?_, fun hzero => ?_⟩
  · rw [regVal_putRegister hok hfit, wordVal_ofMag _ hword, ← hsign, Sign.apply_negated_if, addrSign_apply]
  · rw [State.regWord_advance, regWord_putRegister hok hfit, wordOfMag_sign, ← hsign, hzero, addrSign_zero]

/-- Settles O26: past the checks on M both instructions are ADDTOINDEX, which keeps the exact sum or stops at it. -/
theorem increaseIndex : Obligations.IncreaseIndex := by
  intro n neg a s _ ha
  rw [exec_increase_index_pass ha]
  generalize (if neg then -(addrSum a s) else addrSum a s) = v
  refine ⟨fun hfits => ?_, addToIndex_overflow⟩
  refine ⟨_, addToIndex_next.2 ⟨hfits, rfl⟩, onlyRegister_setIndex s n _, fun _ => rfl, ?_⟩
  change shortVal s.b ((s.setIndex n _).index n) = _ ∧
    (shortVal s.b ((s.setIndex n _).index n) = 0 → ((s.setIndex n _).index n).sign = _)
  rw [State.index_setIndex_same, shortVal_ofMag _ hfits, Sign.apply_ite_ofInt]
  exact ⟨rfl, fun hzero => if_pos hzero⟩

end

/-! ### Jumps (O28 to O32)

JMP, JOV, JNOV and the jumps on CI and on a register are `jumpWhen`, JRED and JBUS are `jumpOnUnit`: the checks on M, then the choice
between the jump and the next instruction. With M a cell what is left is the condition; with M no cell it is never looked at. -/

namespace Sys2Proof.Machine

variable {s t : State} {a : Addr}

/-! #### The conditions -/

/-- What the six conditions on CI say, by the values of CI that meet them (45_jump.md R256 to R261). -/
theorem ciHolds_iff (ci : Comparison) (cond : CiCond) :
    ciHolds ci cond = true ↔
      (cond = .l ∧ ci = .less) ∨ (cond = .e ∧ ci = .equal) ∨ (cond = .g ∧ ci = .greater) ∨
        (cond = .ge ∧ (ci = .greater ∨ ci = .equal)) ∨ (cond = .ne ∧ (ci = .less ∨ ci = .greater)) ∨
        (cond = .le ∧ (ci = .less ∨ ci = .equal)) := by
  cases cond with
  | l | e | g => simp [ciHolds]
  | ge | ne | le => cases ci <;> simp [ciHolds]

/-- What the six conditions on a value say (45_jump.md R262). -/
theorem condHolds_iff (v : Int) (cond : Cond) :
    condHolds v cond = true ↔
      (cond = .n ∧ v < 0) ∨ (cond = .z ∧ v = 0) ∨ (cond = .p ∧ 0 < v) ∨ (cond = .nn ∧ 0 ≤ v) ∨ (cond = .nz ∧ v ≠ 0) ∨
        (cond = .np ∧ v ≤ 0) := by
  cases cond <;> simp [condHolds]

/-! #### The check of the target -/

/-- JUMPCHECK stops at an M that is no cell, whatever would follow (45_jump.md R251; decision D9). -/
theorem withCellM_fault (ha : addrOk a s) (hm : addrSum a s < 0 ∨ 3999 < addrSum a s) (k : Nat → Result) :
    (withM a s fun m => withCell m s k) = .fault (.memoryAddress s.pc (addrSum a s)) := by
  rw [withM_pass ha, withCell_fault hm]

theorem jumpWhen_badTarget (ha : addrOk a s) (hm : addrSum a s < 0 ∨ 3999 < addrSum a s) (taken : Bool) :
    jumpWhen taken a s t = .fault (.memoryAddress s.pc (addrSum a s)) := withCellM_fault ha hm _

theorem jumpOnUnit_badTarget {u : Nat} (hu : unitOk u s) (ha : addrOk a s) (hm : addrSum a s < 0 ∨ 3999 < addrSum a s)
    (taken : Bool) : jumpOnUnit taken a u s = .fault (.memoryAddress s.pc (addrSum a s)) := by
  rw [jumpOnUnit, withM_pass ha, withUnit_pass hu, withCell_fault hm]

end Sys2Proof.Machine

section

open Sys2Proof Sys2Proof.Machine

/-- Settles O28: JMP is the jump that is always taken; JSJ passes the same check and sets the location counter. -/
theorem plainJumps : Obligations.PlainJumps := by
  intro a c s hc
  exact ⟨jumpWhen_pass (taken := true) hc, execJsj_next.2 ⟨c, hc, rfl⟩⟩

/-- Settles O29: both jumps go on from the state with OV off, which is the state itself where OV is off already. -/
theorem overflowJumps : Obligations.OverflowJumps := by
  intro a c s hc
  have hjov : exec (.jov a) s = .next (if s.ov then (s.setOv false).jumpTo c else (s.setOv false).advance) := jumpWhen_pass hc
  have hjnov : exec (.jnov a) s = .next (if !s.ov then (s.setOv false).jumpTo c else (s.setOv false).advance) := jumpWhen_pass hc
  rw [hjov, hjnov]
  cases s.ov with
  | true | false => exact ⟨rfl, rfl⟩

/-- Settles O30: the jump is taken when `ciHolds`. -/
theorem comparisonJumps : Obligations.ComparisonJumps := by
  intro cond a c s hc
  exact ⟨_, (exec_ciJump cond a s).trans (jumpWhen_pass hc), ciHolds_iff s.ci cond⟩

/-- Settles O31: the jump is taken when `condHolds` of the register's value. -/
theorem registerJumps : Obligations.RegisterJumps := by
  intro r cond a c s hc
  exact ⟨_, (exec_regJump r cond a s).trans (jumpWhen_pass hc), condHolds_iff (s.regVal r) cond⟩

/-- Settles O32: every jump checks M before it looks at its condition, JRED and JBUS after the checks on the unit. -/
theorem jumpTargetChecks : Obligations.JumpTargetChecks := by
  intro i a s hi ha hm
  rcases hi with rfl | rfl | rfl | rfl | ⟨cond, rfl⟩ | ⟨r, cond, rfl⟩ | ⟨u, hu, rfl | rfl⟩
  · exact jumpWhen_badTarget ha hm true
  · exact withCellM_fault ha hm _
  · exact jumpWhen_badTarget ha hm s.ov
  · exact jumpWhen_badTarget ha hm (!s.ov)
  · exact (exec_ciJump cond a s).trans (jumpWhen_badTarget ha hm _)
  · exact (exec_regJump r cond a s).trans (jumpWhen_badTarget ha hm _)
  · exact jumpOnUnit_badTarget hu ha hm (!s.busy u)
  · exact jumpOnUnit_badTarget hu ha hm (s.busy u)

end

/-! ### Miscellaneous (O9, O37 to O43)

MOVE leaves one source word in each destination cell, counted modulo the distance of the blocks (`read_moveWords`). A shift acts on the
list of the bytes of rA, or of rA and rX: on the number that the list denotes it is a multiplication or a division by a power of the
byte size, and the circular shifts are rotations of the list. -/

namespace Sys2Proof.Machine

variable {s t : State} {a : Addr} {b k n : Nat} {l : List Nat} {op : List Nat → List Nat}

/-! #### MOVE -/

/-- The loop of MOVE copies the source words; from a source that begins below the destination it reads what it has itself written, so
that the words before the destination repeat (46_miscellaneous.md R330). Where `dst ≤ src` the distance is 0 and nothing repeats. -/
theorem Memory.read_moveWords (m : Memory) (src dst : Nat) (hk : k < n) :
    (m.moveWords src dst n).read (dst + k) = m.read (src + k % (dst - src)) := by
  induction n generalizing m src dst k with
  | zero => omega
  | succ n ih =>
    cases k with
    | zero => rw [Nat.zero_mod]; exact Memory.read_moveWords_zero m src dst n
    | succ k =>
      rw [show dst + (k + 1) = dst + 1 + k by omega, Memory.read_moveWords_succ, ih _ _ _ (by omega), Nat.add_sub_add_right,
        ← Nat.mod_add_mod k]
      by_cases hwrap : k % (dst - src) + 1 = dst - src
      · rw [hwrap, Nat.mod_self, show src + 1 + k % (dst - src) = dst by omega, Memory.read_write_same]
        rfl
      · have hstep : (k % (dst - src) + 1) % (dst - src) = k % (dst - src) + 1 := by
          rcases Nat.eq_zero_or_pos (dst - src) with h0 | hpos
          · rw [h0, Nat.mod_zero]
          · have := Nat.mod_lt k hpos
            exact Nat.mod_eq_of_lt (by omega)
        rw [hstep, Memory.read_write_other m _ (by omega), Nat.add_right_comm, Nat.add_assoc]

theorem withBlock_fault {c : Int} (h : c < 0 ∨ 4000 < c + n) (k : Nat → Result) :
    ∃ d, withBlock c n s k = .fault (.memoryAddress s.pc d) :=
  ⟨_, if_neg (by omega)⟩

theorem withoutHazard_exists_fault {changing : Bool} {lo : Nat} (h : s.hazard changing lo n ≠ none) (k : Result) :
    ∃ c u, withoutHazard changing lo n s k = .fault (.ioHazard s.pc c u) := by
  obtain ⟨⟨c, u⟩, hcu⟩ := Option.ne_none_iff_exists'.1 h
  exact ⟨c, u, withoutHazard_fault hcu k⟩

/-- MOVE of one word or more, past the checks on M (46_miscellaneous.md R330). -/
theorem exec_move_pass (ha : addrOk a s) (hn : 0 < n) :
    exec (.move a n) s =
      withBlock (addrSum a s) n s fun src =>
        withBlock (shortVal s.b (s.index .i1)) n s fun dst =>
          withoutHazard false src n s <| withoutHazard true dst n s <|
            .next ((s.setMem (s.mem.moveWords src dst n)).setIndex .i1 (shortOfMag s.b .plus (dst + n))).advance := by
  rw [exec, execMove, withM_pass ha, if_neg hn.ne']

/-! #### The number that a list of bytes denotes -/

/-- The number of a list of bytes, the first the most significant. -/
def bytesValue (b : Nat) (l : List Nat) : Nat := Nat.ofDigits b l.reverse

theorem wordMag_eq_bytesValue (b : Nat) (w : Word) : wordMag b w = bytesValue b (wordBytes w) := by
  simp only [wordMag, bytesValue, wordBytes, List.reverse_cons, List.reverse_nil, List.nil_append, List.cons_append,
    Nat.ofDigits_cons, Nat.ofDigits_nil]
  ring

theorem bytesValue_append (b : Nat) (l m : List Nat) :
    bytesValue b (l ++ m) = bytesValue b l * b ^ m.length + bytesValue b m := by
  rw [bytesValue, List.reverse_append, Nat.ofDigits_append, List.length_reverse, Nat.add_comm, Nat.mul_comm]
  rfl

@[simp] theorem bytesValue_replicate_zero (b n : Nat) : bytesValue b (List.replicate n 0) = 0 := by
  rw [bytesValue, List.reverse_replicate, Nat.ofDigits_replicate_zero]

/-- Dropping the bytes before the last `k` takes the number modulo the `k`-th power of the byte size. -/
theorem bytesValue_drop (hb : 0 < b) (hl : ∀ x ∈ l, x < b) (k : Nat) :
    bytesValue b (l.drop (l.length - k)) = bytesValue b l % b ^ k := by
  rw [bytesValue, ← List.take_reverse]
  exact (Nat.ofDigits_mod_pow_eq_ofDigits_take k hb _ fun x hx => hl x (List.mem_reverse.1 hx)).symm

/-- Dropping the last `k` bytes divides the number by the `k`-th power of the byte size. -/
theorem bytesValue_take (hb : 0 < b) (hl : ∀ x ∈ l, x < b) (k : Nat) :
    bytesValue b (l.take (l.length - k)) = bytesValue b l / b ^ k := by
  rw [bytesValue, ← List.drop_reverse]
  exact (Nat.ofDigits_div_pow_eq_ofDigits_drop k hb _ fun x hx => hl x (List.mem_reverse.1 hx)).symm

/-! #### Shifts of a list of bytes -/

@[simp] theorem length_shiftLeft (k : Nat) (l : List Nat) : (shiftLeft k l).length = l.length := by
  simp only [shiftLeft, List.length_append, List.length_drop, List.length_replicate]
  omega

@[simp] theorem length_shiftRight (k : Nat) (l : List Nat) : (shiftRight k l).length = l.length := by
  simp only [shiftRight, List.length_append, List.length_take, List.length_replicate]
  omega

/-- A shift to the left multiplies, and what passes the first byte is lost (46_miscellaneous.md R332, R334). -/
theorem bytesValue_shiftLeft (hb : 0 < b) (hl : ∀ x ∈ l, x < b) (k : Nat) :
    bytesValue b (shiftLeft k l) = bytesValue b l * b ^ k % b ^ l.length := by
  rw [shiftLeft, bytesValue_append, bytesValue_replicate_zero, Nat.add_zero, List.length_replicate]
  rcases Nat.le_total k l.length with hk | hk
  · calc bytesValue b (l.drop k) * b ^ min k l.length
        = bytesValue b (l.drop (l.length - (l.length - k))) * b ^ k := by rw [Nat.sub_sub_self hk, Nat.min_eq_left hk]
      _ = bytesValue b l % b ^ (l.length - k) * b ^ k := by rw [bytesValue_drop hb hl]
      _ = bytesValue b l * b ^ k % b ^ l.length := by rw [← Nat.mul_mod_mul_right, ← pow_add, Nat.sub_add_cancel hk]
  · rw [List.drop_eq_nil_of_le hk, Nat.mod_eq_zero_of_dvd (Dvd.dvd.mul_left (pow_dvd_pow b hk) _)]
    exact Nat.zero_mul _

/-- A shift to the right divides (46_miscellaneous.md R333, R335). -/
theorem bytesValue_shiftRight (hb : 0 < b) (hl : ∀ x ∈ l, x < b) (k : Nat) :
    bytesValue b (shiftRight k l) = bytesValue b l / b ^ k := by
  rw [shiftRight, bytesValue_append, bytesValue_replicate_zero, Nat.zero_mul, Nat.zero_add, bytesValue_take hb hl]

theorem circulateLeft_eq_rotate (k : Nat) (l : List Nat) : circulateLeft k l = l.rotate k :=
  List.rotate_eq_drop_append_take_mod.symm

theorem circulateRight_eq_rotate (k : Nat) (l : List Nat) : circulateRight k l = l.rotate (l.length - k % l.length) :=
  (List.rotate_eq_drop_append_take (Nat.sub_le _ _)).symm

@[simp] theorem length_circulateLeft (k : Nat) (l : List Nat) : (circulateLeft k l).length = l.length := by
  rw [circulateLeft_eq_rotate, List.length_rotate]

@[simp] theorem length_circulateRight (k : Nat) (l : List Nat) : (circulateRight k l).length = l.length := by
  rw [circulateRight_eq_rotate, List.length_rotate]

theorem getD_circulateLeft {j : Nat} (hj : j < l.length) (k : Nat) :
    (circulateLeft k l).getD j 0 = l.getD ((j + k) % l.length) 0 := by
  rw [circulateLeft_eq_rotate, List.getD_eq_getElem?_getD, List.getElem?_rotate hj, List.getD_eq_getElem?_getD]

/-- A rotation by `k` and by what is missing to the length goes round (46_miscellaneous.md R337). -/
theorem circulateRight_circulateLeft (k : Nat) (l : List Nat) : circulateRight k (circulateLeft k l) = l := by
  rcases Nat.eq_zero_or_pos l.length with h0 | hpos
  · rw [List.length_eq_zero_iff.1 h0]
    exact List.length_eq_zero_iff.1 (by simp)
  · have hround : k + (l.length - k % l.length) = l.length * (k / l.length + 1) := by
      have hlt := Nat.mod_lt k hpos
      have hdiv := Nat.div_add_mod k l.length
      rw [Nat.mul_succ]
      omega
    rw [circulateRight_eq_rotate, length_circulateLeft, circulateLeft_eq_rotate, List.rotate_rotate, hround,
      List.rotate_length_mul]

theorem circulateLeft_circulateRight (k : Nat) (l : List Nat) : circulateLeft k (circulateRight k l) = l := by
  rw [circulateLeft_eq_rotate, circulateRight_eq_rotate, List.rotate_rotate, Nat.add_comm, ← List.rotate_rotate,
    ← circulateLeft_eq_rotate k l]
  simpa only [circulateRight_eq_rotate, length_circulateLeft] using circulateRight_circulateLeft k l

/-- What SLC says of the shifted list, read backwards (46_miscellaneous.md R337). -/
theorem getD_circulateRight {j : Nat} (hj : j < l.length) (k : Nat) :
    (circulateRight k l).getD ((j + k) % l.length) 0 = l.getD j 0 := by
  have hleft := getD_circulateLeft (l := circulateRight k l) (by rwa [length_circulateRight]) k
  rw [circulateLeft_circulateRight, length_circulateRight] at hleft
  exact hleft.symm

/-! #### Shifts of the registers -/

/-- The ten bytes of rA and rX (46_miscellaneous.md R331). -/
def State.bytesAX (s : State) : List Nat := wordBytes s.rA ++ wordBytes s.rX

theorem State.length_bytesAX (s : State) : s.bytesAX.length = 10 := rfl

theorem State.dividend_eq_bytesValue (s : State) : s.dividend = bytesValue s.b s.bytesAX := by
  rw [State.dividend, State.bytesAX, bytesValue_append, wordMag_eq_bytesValue, wordMag_eq_bytesValue, length_wordBytes]

theorem State.bytesAX_lt (hA : wordOk s.b s.rA) (hX : wordOk s.b s.rX) : ∀ x ∈ s.bytesAX, x < s.b :=
  List.forall_mem_append.2 ⟨wordBytes_lt hA, wordBytes_lt hX⟩

theorem wordBytes_wordOfBytes_eq_take (sign : Sign) (h : 5 ≤ l.length) : wordBytes (wordOfBytes sign l) = l.take 5 := by
  refine List.ext_getElem (by simp [length_wordBytes, h]) fun i hi _ => ?_
  rw [length_wordBytes] at hi
  rw [List.getElem_take, ← List.getD_eq_getElem l 0]
  interval_cases i <;> rfl

theorem wordMag_wordOfBytes (b : Nat) (sign : Sign) (h : l.length = 5) : wordMag b (wordOfBytes sign l) = bytesValue b l := by
  rw [wordMag_eq_bytesValue, wordBytes_wordOfBytes_eq_take sign h.ge, List.take_of_length_le h.le]

/-- A shift of rA and rX is its operation on their ten bytes. -/
theorem bytesAX_shiftAX (h : (op s.bytesAX).length = 10) : (shiftAX op s).bytesAX = op s.bytesAX := by
  have hdrop : ((op s.bytesAX).drop 5).length = 5 := by rw [List.length_drop, h]
  calc (shiftAX op s).bytesAX
      = wordBytes (wordOfBytes s.rA.sign (op s.bytesAX)) ++ wordBytes (wordOfBytes s.rX.sign ((op s.bytesAX).drop 5)) := rfl
    _ = (op s.bytesAX).take 5 ++ (op s.bytesAX).drop 5 := by
        rw [wordBytes_wordOfBytes_eq_take _ (by omega), wordBytes_wordOfBytes_eq_take _ hdrop.ge, List.take_of_length_le hdrop.le]
    _ = op s.bytesAX := List.take_append_drop 5 _

theorem wordOk_shiftAX (hop : KeepsBytes op) (hA : wordOk s.b s.rA) (hX : wordOk s.b s.rX) :
    wordOk s.b (shiftAX op s).rA ∧ wordOk s.b (shiftAX op s).rX := by
  have hb : 0 < s.b := Nat.zero_lt_of_lt hA.1
  have hbytes : ∀ x ∈ op s.bytesAX, x < s.b := hop.lt hb (State.bytesAX_lt hA hX)
  exact ⟨wordOk_ofBytes hb _ hbytes, wordOk_ofBytes hb _ fun x hx => hbytes x (List.mem_of_mem_drop hx)⟩

theorem dividend_shiftAX (h : (op s.bytesAX).length = 10) : (shiftAX op s).dividend = bytesValue s.b (op s.bytesAX) := by
  rw [State.dividend_eq_bytesValue, bytesAX_shiftAX h]
  rfl

/-- A shift that gives back the ten bytes of a state with the same signs gives back its registers. -/
theorem shiftAX_restores (hA : t.rA.sign = s.rA.sign) (hX : t.rX.sign = s.rX.sign) (h : op t.bytesAX = s.bytesAX) :
    (shiftAX op t).rA = s.rA ∧ (shiftAX op t).rX = s.rX := by
  change wordOfBytes t.rA.sign (op t.bytesAX) = s.rA ∧ wordOfBytes t.rX.sign ((op t.bytesAX).drop 5) = s.rX
  rw [h, hA, hX]
  exact ⟨rfl, rfl⟩

theorem exec_shift_pass (ha : addrOk a s) (hm : addrSum a s = (n : Int)) (kind : ShiftKind) :
    exec (.shift kind a) s = .next (shiftResult kind n s).advance := by
  rw [exec_shift, withCount_pass ha hm]

theorem withCount_negative (ha : addrOk a s) (hm : addrSum a s < 0) (k : Nat → Result) :
    withCount a s k = .fault (.negativeShift s.pc (addrSum a s)) := by
  rw [withCount, withM_pass ha, if_pos hm]

/-! #### The turns of the units and of the operator -/

theorem step_eq_complete {u : Nat} (hdue : s.due = some u) : step s = .next (s.complete u) := by
  rw [step, cycle, hdue]

/-- A halted machine in which no transfer ends leaves the step to the operator (46_miscellaneous.md R339). -/
theorem step_eq_operate (hdue : s.due = none) (hhalt : s.halted = true) : step s = .next s.tick.operate := by
  rw [step, cycle, hdue]
  exact if_pos hhalt

theorem State.operate_nil (h : s.restarts = []) : s.operate = s := by
  rw [State.operate, h]

theorem State.operate_zero {q : List Nat} (h : s.restarts = 0 :: q) : s.operate = (s.setRestarts q).setHalted false := by
  rw [State.operate, h]

theorem State.operate_succ {q : List Nat} (h : s.restarts = (n + 1) :: q) : s.operate = s.setRestarts (n :: q) := by
  rw [State.operate, h]

end Sys2Proof.Machine

section

open Sys2Proof Sys2Proof.Machine

/-- Settles O37: with its checks passed MOVE is the loop of `read_moveWords`; past the source the count modulo the distance is the count
itself. -/
theorem moveWords : Obligations.MoveWords := by
  intro a f src dst s hb hf hblock hdst hfits hread hwrite
  have hend : dst + f < s.b ^ 2 := by nlinarith
  refine ⟨_, execMove_next.2 ⟨hblock.1, .inr ⟨src, dst, hf, hblock, hdst, hfits, hread, hwrite, rfl⟩⟩, rfl,
    fun k hk => State.index_setIndex_other _ _ hk, rfl, ?_, fun k hk => ?_, fun n hn => Memory.read_moveWords_other _ _ _ _ hn⟩
  · change shortVal s.b (shortOfMag s.b .plus (dst + f)) = _
    rw [shortVal_ofMag _ hend]
    exact Nat.cast_add dst f
  · change (s.mem.moveWords src dst f).read (dst + k) = _
    rw [Memory.read_moveWords s.mem src dst hk]
    split
    · rfl
    · next hapart =>
      rcases Nat.lt_or_ge src dst with hlt | hge
      · rw [Nat.mod_eq_of_lt (by omega)]
        rfl
      · rw [Nat.sub_eq_zero_of_le hge, Nat.mod_zero]
        rfl

/-- Settles O38: the checks stand in this order before the loop (`exec_move_pass`). -/
theorem moveChecks : Obligations.MoveChecks := by
  refine ⟨fun a s ha => execMove_next.2 ⟨ha, .inl ⟨rfl, rfl⟩⟩, fun a f s hf ha => ?_⟩
  rw [exec_move_pass ha hf]
  refine ⟨fun hsrc => withBlock_fault hsrc _, fun src hsrc hfits => ?_⟩
  rw [hsrc, withBlock_pass hfits]
  refine ⟨fun hdst => withBlock_fault hdst _, fun dst hdst hfits hhazard => ?_⟩
  rw [hdst, withBlock_pass hfits]
  by_cases hread : s.hazard false src f = none
  · rw [withoutHazard_pass hread]
    exact withoutHazard_exists_fault (hhazard.resolve_left (not_not_intro hread)) _
  · exact withoutHazard_exists_fault hread _

/-- Settles O39: each shift is its operation on a list of bytes, and that is arithmetic on the number of the list
(`bytesValue_shiftLeft`, `bytesValue_shiftRight`). -/
theorem zeroFillShifts : Obligations.ZeroFillShifts := by
  intro a k s hb hA hX ha hm
  have hb0 : 0 < s.b := by omega
  have hlt : ∀ x ∈ s.bytesAX, x < s.b := State.bytesAX_lt hA hX
  refine ⟨⟨_, exec_shift_pass ha hm .sla, rfl, rfl, ?_⟩, ⟨_, exec_shift_pass ha hm .sra, rfl, rfl, ?_⟩,
    ⟨_, exec_shift_pass ha hm .slax, rfl, rfl, rfl, ?_⟩, ⟨_, exec_shift_pass ha hm .srax, rfl, rfl, rfl, ?_⟩⟩
  · rw [wordMag_eq_bytesValue s.b s.rA]
    exact (wordMag_wordOfBytes s.b _ (length_shiftLeft k _)).trans (bytesValue_shiftLeft hb0 (wordBytes_lt hA) k)
  · rw [wordMag_eq_bytesValue s.b s.rA]
    exact (wordMag_wordOfBytes s.b _ (length_shiftRight k _)).trans (bytesValue_shiftRight hb0 (wordBytes_lt hA) k)
  · obtain ⟨hA', hX'⟩ := wordOk_shiftAX (keepsBytes_shiftLeft k) hA hX
    refine ⟨hA', hX', ?_⟩
    calc (shiftAX (shiftLeft k) s).dividend
        = bytesValue s.b (shiftLeft k s.bytesAX) := dividend_shiftAX (length_shiftLeft k _)
      _ = bytesValue s.b s.bytesAX * s.b ^ k % s.b ^ 10 := bytesValue_shiftLeft hb0 hlt k
      _ = s.dividend * s.b ^ k % s.b ^ 10 := by rw [State.dividend_eq_bytesValue]
  · obtain ⟨hA', hX'⟩ := wordOk_shiftAX (keepsBytes_shiftRight k) hA hX
    refine ⟨hA', hX', ?_⟩
    calc (shiftAX (shiftRight k) s).dividend
        = bytesValue s.b (shiftRight k s.bytesAX) := dividend_shiftAX (length_shiftRight k _)
      _ = bytesValue s.b s.bytesAX / s.b ^ k := bytesValue_shiftRight hb0 hlt k
      _ = s.dividend / s.b ^ k := by rw [State.dividend_eq_bytesValue]

/-- Settles O40: the circular shifts are rotations of the ten bytes. -/
theorem circularShifts : Obligations.CircularShifts := by
  intro a k s ha hm
  refine ⟨⟨_, exec_shift_pass ha hm .slc, rfl, rfl, rfl, fun j hj => ?_⟩,
    ⟨_, exec_shift_pass ha hm .src, rfl, rfl, rfl, fun j hj => ?_⟩⟩
  · change (shiftAX (circulateLeft k) s).bytesAX.getD j 0 = s.bytesAX.getD ((j + k) % 10) 0
    rw [bytesAX_shiftAX (length_circulateLeft k _)]
    exact getD_circulateLeft hj k
  · change (shiftAX (circulateRight k) s).bytesAX.getD ((j + k) % 10) 0 = s.bytesAX.getD j 0
    rw [bytesAX_shiftAX (length_circulateRight k _)]
    exact getD_circulateRight hj k

/-- Settles O41: each rotation undoes the other on the ten bytes, and both shifts keep the signs. -/
theorem circularShiftsInverse : Obligations.CircularShiftsInverse := by
  intro a a' s t _ ha' hpos hm
  obtain ⟨k, hk⟩ := Int.eq_ofNat_of_zero_le hpos
  have hm' : addrSum a' t = (k : Int) := hm.trans hk
  refine ⟨fun hx => ⟨_, exec_shift_pass ha' hm' .src, ?_⟩, fun hx => ⟨_, exec_shift_pass ha' hm' .slc, ?_⟩⟩
  · obtain ⟨-, -, rfl⟩ := shift_next (k := .slc).1 hx
    refine shiftAX_restores rfl rfl ?_
    rw [hk]
    exact (congrArg (circulateRight k) (bytesAX_shiftAX (length_circulateLeft k _))).trans (circulateRight_circulateLeft k _)
  · obtain ⟨-, -, rfl⟩ := shift_next (k := .src).1 hx
    refine shiftAX_restores rfl rfl ?_
    rw [hk]
    exact (congrArg (circulateLeft k) (bytesAX_shiftAX (length_circulateRight k _))).trans (circulateLeft_circulateRight k _)

/-- Settles O9: a transfer that ends has the step (`step_eq_complete`); else on a halted machine the operator has it
(`step_eq_operate`), one case for each shape of the queue. -/
theorem stepOfOtherAgents : Obligations.StepOfOtherAgents := by
  refine ⟨fun s u => step_eq_complete, fun s hdue hhalt hq => ?_, fun s q hdue hhalt hq => ?_, fun s n q hdue hhalt hq => ?_⟩
  · rw [step_eq_operate hdue hhalt, State.operate_nil (s := s.tick) hq]
  · rw [step_eq_operate hdue hhalt, State.operate_zero (s := s.tick) hq]
    rfl
  · rw [step_eq_operate hdue hhalt, State.operate_succ (s := s.tick) hq]
    rfl

/-- Settles O42: all six shifts read their count through `withCount`. -/
theorem negativeShifts : Obligations.NegativeShifts :=
  fun k a s ha hm => (exec_shift k a s).trans (withCount_negative ha hm _)

/-- Settles O43: NOP has no check to pass, HLT those on M. -/
theorem nopAndHalt : Obligations.NopAndHalt :=
  ⟨fun _ _ _ => rfl, fun _ _ ha => execHlt_next.2 ⟨ha, rfl⟩⟩

end

/-! ### Input and output (O11, O47 to O56, O58)

IN, OUT and IOC pass their checks and start an operation of their unit (`exists_started`); a lemma for each check says where it stops.
The media give back what they were given, as the tables of Machine/Sparse.lean do. While a unit is busy every step lessens the number
`State.toWait` (`step_ready_or_toWait_lt`), so that the unit becomes ready. -/

namespace Sys2Proof.Machine

variable {s t : State} {a : Addr} {i : Instr} {u v n lo : Nat} {m : Int} {p : Pending} {changing : Bool}

/-! #### The checks on the unit -/

theorem unitSize_pos (u : Nat) : 0 < unitSize u := by
  unfold unitSize
  split_ifs <;> decide

theorem withUnit_invalid (h : 19 < u) (k : Result) : withUnit u s k = .fault (.invalidUnit s.pc u) :=
  if_pos h

theorem withUnit_absent (h : u ≤ 19) (hi : s.installed u = false) (k : Result) : withUnit u s k = .fault (.unitAbsent s.pc u) := by
  rw [withUnit, if_neg (Nat.not_lt.2 h), if_neg (by simp [hi])]

theorem withDirection_fault {able : Bool} (h : able = false) (k : Result) :
    withDirection able u s k = .fault (.unitDirection s.pc u) := by
  rw [withDirection, if_neg (by simp [h])]

/-- The five instructions that name a unit check it right after M (47_input_output.md R373). -/
theorem exec_eq_withUnit (hi : i = .inp a u ∨ i = .out a u ∨ i = .ioc a u ∨ i = .jred a u ∨ i = .jbus a u) (ha : addrOk a s) :
    ∃ k, exec i s = withUnit u s k := by
  rcases hi with rfl | rfl | rfl | rfl | rfl
  · exact ⟨_, by rw [exec, execInp, withM_pass ha]⟩
  · exact ⟨_, by rw [exec, execOut, withM_pass ha]⟩
  · exact ⟨_, by rw [exec, execIoc, withM_pass ha]⟩
  · exact ⟨_, by rw [exec, execJred, jumpOnUnit, withM_pass ha]⟩
  · exact ⟨_, by rw [exec, execJbus, jumpOnUnit, withM_pass ha]⟩

/-! #### Transfers -/

/-- Which of IN and OUT an instruction is, how it accesses its block, and that its unit has the direction. -/
def Transfers (i : Instr) (changing : Bool) (a : Addr) (u : Nat) : Prop :=
  (i = .inp a u ∧ changing = true ∧ canInput u = true) ∨ (i = .out a u ∧ changing = false ∧ canOutput u = true)

theorem exec_inp_pass (hu : unitOk u s) (ha : addrOk a s) :
    exec (.inp a u) s =
      withDirection (canInput u) u s (withBlock (addrSum a s) (unitSize u) s fun start =>
        whenReady u s <| withoutHazard true start (unitSize u) s <| withInput u s fun words media =>
          .next ((s.setMedia media).start u (.input start words)).advance) := by
  rw [exec, execInp, withM_pass ha, withUnit_pass hu]

theorem exec_out_pass (hu : unitOk u s) (ha : addrOk a s) :
    exec (.out a u) s =
      withDirection (canOutput u) u s (withBlock (addrSum a s) (unitSize u) s fun start =>
        whenReady u s <| withoutHazard false start (unitSize u) s <|
          .next ((s.setMedia (s.media.output u (diskSelect s.b s.rX) (s.mem.readBlock start (unitSize u)))).start u
            (.output start)).advance) := by
  rw [exec, execOut, withM_pass ha, withUnit_pass hu]

/-- Past the checks on M and on the unit, a transfer checks its block, waits for the unit, and checks the cells of the block
(60_exceptions.md R403). -/
theorem Transfers.exec_eq (hi : Transfers i changing a u) (hu : unitOk u s) (ha : addrOk a s) :
    ∃ k : Nat → Result, exec i s = withBlock (addrSum a s) (unitSize u) s fun start =>
      whenReady u s <| withoutHazard changing start (unitSize u) s (k start) := by
  rcases hi with ⟨rfl, rfl, hdir⟩ | ⟨rfl, rfl, hdir⟩
  · exact ⟨_, (exec_inp_pass hu ha).trans (withDirection_pass hdir)⟩
  · exact ⟨_, (exec_out_pass hu ha).trans (withDirection_pass hdir)⟩

theorem whenReady_hold (h : s.busy u = true) (k : Result) : whenReady u s k = .next s :=
  if_pos h

/-- IN with nothing in its way takes the next block of its medium. -/
theorem exec_inp_ready (hu : unitOk u s) (hblock : blockOk a lo (unitSize u) s) (hdir : canInput u = true) (hready : s.busy u = false)
    (hfree : s.hazard true lo (unitSize u) = none) :
    exec (.inp a u) s = withInput u s fun words media => .next ((s.setMedia media).start u (.input lo words)).advance := by
  obtain ⟨ha, hm, hfits⟩ := hblock
  rw [exec_inp_pass hu ha, withDirection_pass hdir, hm, withBlock_pass hfits, whenReady_pass hready, withoutHazard_pass hfree]

/-- The state after an operation has been started: the medium, the busy units, the counter of draws and the location counter are the only
fields written, and of the busy units only the unit itself. -/
theorem exists_started {media : Media} {op : Operation} (hx : exec i s = .next ((s.setMedia media).start u op).advance) :
    ∃ t p, exec i s = .next t ∧ t = { s with media := media, pending := t.pending, draws := t.draws, pc := s.pc + 1 } ∧
      sparseLookup t.pending u = some p ∧ p.op = op ∧ ∀ v, v ≠ u → sparseLookup t.pending v = sparseLookup s.pending v :=
  ⟨_, _, hx, rfl, sparseLookup_insert_same s.pending u _, rfl, fun _ hv => sparseLookup_insert_other s.pending _ hv⟩

/-! #### Control operations and the faults of the media -/

theorem exec_ioc_pass (hu : unitOk u s) (ha : addrOk a s) :
    exec (.ioc a u) s =
      whenReady u s (withControl u (addrSum a s) s fun media => .next ((s.setMedia media).start u .control).advance) := by
  rw [exec, execIoc, withM_pass ha, withUnit_pass hu]

theorem tapeForward_eq_some {tape : Tape} (h : tape.pos + n ≤ tape.recs.length) :
    tapeForward tape n = some ⟨tape.recs, tape.pos + n⟩ :=
  if_neg (Nat.not_lt.2 h)

theorem tapeForward_eq_none {tape : Tape} (h : tape.recs.length < tape.pos + n) : tapeForward tape n = none :=
  if_pos h

theorem withControl_undefined (h : u = 16 ∨ u = 17 ∨ (8 ≤ u ∧ m ≠ 0)) (k : Media → Result) :
    withControl u m s k = .fault (.ioControlUndefined s.pc u m) := by
  rw [withControl, if_neg (by omega), if_pos (by omega)]

theorem withControl_pastRecords (hu : u ≤ 7) (hm : 0 < m)
    (hpast : (s.media.tape u).recs.length < (s.media.tape u).pos + m.natAbs) (k : Media → Result) :
    withControl u m s k = .fault (.tapeImproper s.pc u) := by
  rw [withControl, if_pos hu, if_neg hm.ne', if_neg hm.not_gt, tapeForward_eq_none hpast]

/-- The table of control operations, unit by unit (47_input_output.md R365, R366, R367, R370). -/
theorem controlMedia_eq_some {media : Media}
    (h : (u ≤ 7 ∧ m = 0 ∧ media = s.media.setTape u ⟨(s.media.tape u).recs, 0⟩) ∨
      (u ≤ 7 ∧ m < 0 ∧ media = s.media.setTape u ⟨(s.media.tape u).recs, (s.media.tape u).pos - m.natAbs⟩) ∨
      (u ≤ 7 ∧ 0 < m ∧ (s.media.tape u).pos + m.natAbs ≤ (s.media.tape u).recs.length ∧
        media = s.media.setTape u ⟨(s.media.tape u).recs, (s.media.tape u).pos + m.natAbs⟩) ∨
      (8 ≤ u ∧ u ≤ 15 ∧ m = 0 ∧ media = s.media) ∨
      (u = 18 ∧ m = 0 ∧ media = { s.media with printed := s.media.printed ++ [.pageBreak] }) ∨
      (u = 19 ∧ m = 0 ∧ media = { s.media with ppos := 0 })) :
    controlMedia u m s = some media := by
  rcases h with ⟨hu, rfl, rfl⟩ | ⟨hu, hm, rfl⟩ | ⟨hu, hm, hfits, rfl⟩ | ⟨hlo, hhi, rfl, rfl⟩ | ⟨rfl, rfl, rfl⟩ | ⟨rfl, rfl, rfl⟩
  · rw [controlMedia, if_pos hu, if_pos rfl, tapeRewind]
  · rw [controlMedia, if_pos hu, if_neg hm.ne, if_pos hm, tapeBack]
  · rw [controlMedia, if_pos hu, if_neg hm.ne', if_neg hm.not_gt, tapeForward_eq_some hfits, Option.map_some]
  · rw [controlMedia, if_neg (by omega), if_neg (by omega), if_pos hhi]
  · rfl
  · rfl

theorem withInput_tapeImproper (hu : u ≤ 7) (h : s.media.input u (diskSelect s.b s.rX) = none) (k : List Word → Media → Result) :
    withInput u s k = .fault (.tapeImproper s.pc u) := by
  simp only [withInput, h, if_pos hu]

theorem withInput_exhausted (hu : 7 < u) (h : s.media.input u (diskSelect s.b s.rX) = none) (k : List Word → Media → Result) :
    withInput u s k = .fault (.inputExhausted s.pc u) := by
  simp only [withInput, h, if_neg (Nat.not_le.2 hu)]

/-! #### Tapes and disks -/

section

variable {media : Media} {k j : Nat} {block : List Word}

@[simp] theorem Media.tape_setTape_same (media : Media) (u : Nat) (tape : Tape) : (media.setTape u tape).tape u = tape :=
  sparseGet_set_same _ _ _ _

theorem Media.tape_setTape_other (media : Media) (tape : Tape) (h : v ≠ u) : (media.setTape u tape).tape v = media.tape v :=
  sparseGet_set_other _ _ _ h

@[simp] theorem Media.diskBlock_setDiskBlock_same (media : Media) (u k : Nat) (block : Block) :
    (media.setDiskBlock u k block).diskBlock u k = block := by
  simp [Media.diskBlock, Media.setDiskBlock]

theorem Media.diskBlock_setDiskBlock_other (media : Media) (block : Block) (h : v ≠ u ∨ j ≠ k) :
    (media.setDiskBlock u k block).diskBlock v j = media.diskBlock v j := by
  unfold Media.diskBlock Media.setDiskBlock
  by_cases hv : v = u
  · subst hv
    rw [sparseGet_set_same, sparseGet_set_other _ _ _ (h.resolve_left (not_not_intro rfl))]
  · rw [sparseGet_set_other _ _ _ hv]

theorem Media.output_tape (hu : u ≤ 7) : media.output u k block = media.setTape u (tapeWrite (media.tape u) block) :=
  if_pos hu

theorem Media.output_disk (hlo : 8 ≤ u) (hhi : u ≤ 15) : media.output u k block = media.setDiskBlock u k block := by
  rw [Media.output, if_neg (by omega), if_pos hhi]

theorem Media.input_disk (hlo : 8 ≤ u) (hhi : u ≤ 15) : media.input u k = some (media.diskBlock u k, media) := by
  rw [Media.input, if_neg (by omega), if_pos hhi]

theorem Media.input_tape_some (hu : u ≤ 7) (h : (media.tape u).recs[(media.tape u).pos]? = some block) :
    media.input u k = some (block, media.setTape u ⟨(media.tape u).recs, (media.tape u).pos + 1⟩) := by
  simp only [Media.input, if_pos hu, tapeRead, h]

theorem Media.input_tape_none (hu : u ≤ 7) (h : (media.tape u).recs.length ≤ (media.tape u).pos) : media.input u k = none := by
  simp only [Media.input, if_pos hu, tapeRead, List.getElem?_eq_none h]

/-- The record written is the last of its tape and stands where the head was (47_input_output.md R360). -/
theorem getElem?_tapeWrite {tape : Tape} (h : tape.pos ≤ tape.recs.length) (block : Block) :
    (tapeWrite tape block).recs[tape.pos]? = some block := by
  have hlen : (tape.recs.take tape.pos).length = tape.pos := List.length_take_of_le h
  rw [tapeWrite, List.getElem?_append_right hlen.le, hlen, Nat.sub_self]
  rfl

theorem length_tapeWrite {tape : Tape} (h : tape.pos ≤ tape.recs.length) (block : Block) :
    (tapeWrite tape block).recs.length = tape.pos + 1 := by
  rw [tapeWrite, List.length_append, List.length_take_of_le h, List.length_singleton]

/-! #### Character units -/

theorem Media.input_cards {card : List Nat} (h : media.deck[media.nextCard]? = some card) :
    media.input 16 k = some (blockOfChars 16 card, { media with nextCard := media.nextCard + 1 }) := by
  simp only [Media.input, h]
  rfl

theorem Media.input_cards_none (h : media.deck.length ≤ media.nextCard) : media.input 16 k = none := by
  simp only [Media.input, List.getElem?_eq_none h]
  rfl

theorem Media.input_paperTape {chars : List Nat} (h : media.ptape[media.ppos]? = some chars) :
    media.input 19 k = some (blockOfChars 14 chars, { media with ppos := media.ppos + 1 }) := by
  simp only [Media.input, h]
  rfl

theorem Media.input_paperTape_none (h : media.ptape.length ≤ media.ppos) : media.input 19 k = none := by
  simp only [Media.input, List.getElem?_eq_none h]
  rfl

theorem length_blockOfChars (n : Nat) (chars : List Nat) : (blockOfChars n chars).length = n := by
  simp [blockOfChars]

/-- Character 5k + j of a block, counting from 1, is byte j of word k (47_input_output.md R354). -/
theorem byteAt_of_getElem?_blockOfChars {chars : List Nat} {w : Word} (hw : (blockOfChars n chars)[k]? = some w) (h1 : 1 ≤ j)
    (h5 : j ≤ 5) : byteAt w j = chars.getD (5 * k + j - 1) 0 := by
  obtain ⟨x, hx, rfl⟩ := Option.map_eq_some_iff.1 (List.getElem?_map.symm.trans hw)
  obtain rfl : k = x := (List.getElem?_eq_some_iff.1 hx).elim fun _ h => (List.getElem_range _).symm.trans h
  rw [byteAt_wordOfBytes _ _ h1 h5, List.getD_eq_getElem?_getD, List.getElem?_drop, ← Nat.add_sub_assoc h1,
    List.getD_eq_getElem?_getD]

theorem charsOfBlock_cons (w : Word) (l : List Word) : charsOfBlock (w :: l) = wordBytes w ++ charsOfBlock l := rfl

/-- Byte j of word k of a block is its character 5k + j, counting from 1 (47_input_output.md R354). -/
theorem getD_charsOfBlock {w : Word} (hw : block[k]? = some w) (h1 : 1 ≤ j) (h5 : j ≤ 5) :
    (charsOfBlock block).getD (5 * k + j - 1) 0 = byteAt w j := by
  induction block generalizing k with
  | nil => cases hw
  | cons x l ih =>
    rw [charsOfBlock_cons]
    cases k with
    | zero =>
      obtain rfl : x = w := Option.some.inj hw
      rw [List.getD_append _ _ _ _ (by rw [length_wordBytes]; omega), Nat.mul_zero, Nat.zero_add, byteAt]
    | succ k =>
      rw [List.getD_append_right _ _ _ _ (by rw [length_wordBytes]; omega), length_wordBytes, ← ih hw]
      congr 1
      omega

end

/-! #### The end of a transfer -/

theorem State.complete_eq (h : sparseLookup s.pending u = some p) :
    s.complete u = (s.setMem (p.op.deliver s.mem)).setPending (sparseErase s.pending u) := by
  simp only [State.complete, h]

theorem State.complete_eq_self (h : sparseLookup s.pending u = none) : s.complete u = s := by
  simp only [State.complete, h]

theorem lookup_complete_other (s : State) (h : v ≠ u) :
    sparseLookup (s.complete u).pending v = sparseLookup s.pending v := by
  cases hu : sparseLookup s.pending u with
  | none => rw [State.complete_eq_self hu]
  | some p =>
    rw [State.complete_eq hu]
    exact sparseLookup_erase_other s.pending h

theorem busy_complete_same (s : State) (u : Nat) : (s.complete u).busy u = false := by
  cases hu : sparseLookup s.pending u with
  | none => rw [State.complete_eq_self hu, State.busy, hu, Option.isSome_none]
  | some p =>
    rw [State.complete_eq hu]
    exact congrArg Option.isSome (sparseLookup_erase_same s.pending u)

/-! #### How long a unit stays busy -/

theorem busy_eq_true_of_lookup (h : sparseLookup s.pending u = some p) : s.busy u = true := by
  rw [State.busy, h, Option.isSome_some]

/-- At most the 20 units are busy. -/
theorem pendingOk.length_le {q : Params} {l : List (Nat × Pending)} (h : pendingOk q l) : l.length ≤ 20 := by
  obtain ⟨hsorted, hunits, -⟩ := h
  have hnodup : (l.map Prod.fst).Nodup := (List.pairwise_map.2 hsorted).imp Nat.ne_of_lt
  have hsub : l.map Prod.fst ⊆ List.range 20 := fun x hx => by
    obtain ⟨e, he, rfl⟩ := List.mem_map.1 hx
    exact List.mem_range.2 (Nat.lt_succ_of_le (hunits e he).1)
  simpa using (hnodup.subperm hsub).length_le

theorem State.operate_pending (s : State) : s.operate.pending = s.pending := by
  rcases hq : s.restarts with _ | ⟨_ | n, q⟩
  · rw [State.operate_nil hq]
  · rw [State.operate_zero hq]
    rfl
  · rw [State.operate_succ hq]
    rfl

theorem lookup_tick (h : sparseLookup s.pending u = some p) :
    sparseLookup s.tick.pending u = some ⟨p.op, p.block, p.wait - 1⟩ := by
  rw [State.tick_pending]
  generalize s.pending = l at h ⊢
  induction l with
  | nil => cases h
  | cons e l ih =>
    simp only [List.map_cons, sparseLookup] at h ⊢
    split at h
    · next he => rw [if_pos he, Option.some.inj h]
    · next he => rw [if_neg he, ih h]

/-- Starting an operation of a unit that is ready leaves a busy unit as it is. -/
theorem lookup_started (hready : s.busy v = false) (h : sparseLookup s.pending u = some p) (media : Media) (op : Operation) :
    sparseLookup ((s.setMedia media).start v op).advance.pending u = some p := by
  have hne : u ≠ v := by
    rintro rfl
    exact Bool.false_ne_true (hready.symm.trans (busy_eq_true_of_lookup h))
  exact (sparseLookup_insert_other s.pending _ hne).trans h

/-- No instruction touches the operation of a busy unit: IN, OUT and IOC wait for it (47_input_output.md R362). -/
theorem lookup_exec (hx : exec i s = .next t) (h : sparseLookup s.pending u = some p) : sparseLookup t.pending u = some p := by
  by_cases hi : startsUnit i
  · rcases hi with ⟨a, f, rfl⟩ | ⟨a, f, rfl⟩ | ⟨a, f, rfl⟩
    · obtain ⟨lo, -, -, -, ⟨-, rfl⟩ | ⟨hready, -, words, media, -, rfl⟩⟩ := execInp_next.1 hx
      · exact h
      · exact lookup_started hready h media _
    · obtain ⟨lo, -, -, -, ⟨-, rfl⟩ | ⟨hready, -, rfl⟩⟩ := execOut_next.1 hx
      · exact h
      · exact lookup_started hready h _ _
    · obtain ⟨-, -, ⟨-, rfl⟩ | ⟨hready, media, -, rfl⟩⟩ := execIoc_next.1 hx
      · exact h
      · exact lookup_started hready h media _
  · rw [((exec_changes i hx).units hi).1]
    exact h

theorem due_eq_some (h : s.due = some v) : ∃ q, (v, q) ∈ s.pending := by
  obtain ⟨⟨w, q⟩, hfind, rfl⟩ := Option.map_eq_some_iff.1 h
  exact ⟨q, List.mem_of_find?_eq_some hfind⟩

theorem wait_pos_of_due_none (hdue : s.due = none) (h : sparseLookup s.pending u = some p) : 0 < p.wait := by
  have hnone := List.find?_eq_none.1 (Option.map_eq_none_iff.1 hdue) _ (sparseLookup_mem h)
  exact Nat.pos_of_ne_zero fun h0 => hnone (decide_eq_true h0)

/-- A step in which no transfer ends is the turn of the operator or of an instruction, one processor step later for the units. -/
theorem step_next_of_due_none (hdue : s.due = none) (hx : step s = .next t) :
    t = s.tick.operate ∨ ∃ i, exec i s.tick = .next t := by
  cases hhalt : s.halted with
  | true =>
    rw [step_eq_operate hdue hhalt] at hx
    cases hx
    exact .inl rfl
  | false =>
    rw [step_eq_withInstruction hdue hhalt] at hx
    obtain ⟨-, -, i, -, hi⟩ := withInstruction_next.1 hx
    exact .inr ⟨i, hi⟩

/-- The end of an operation makes the list of the busy units shorter. -/
theorem length_complete_lt {q : Pending} (h : (v, q) ∈ s.pending) : (s.complete v).pending.length < s.pending.length := by
  cases hv : sparseLookup s.pending v with
  | none => exact absurd rfl (sparseLookup_none.1 hv _ h)
  | some r =>
    rw [State.complete_eq hv]
    exact List.length_filter_lt_length_iff_exists.2 ⟨_, h, by simp⟩

/-- What bounds the steps until a unit with `wait` processor steps to wait is ready: 21 for each of them, since at most 20 operations end
between two processor steps, and one for each operation in progress. -/
def State.toWait (s : State) (wait : Nat) : Nat := 21 * wait + s.pending.length

/-- A step makes a busy unit ready or lessens what there is to wait: another operation ends, or a processor step passes, after which at
most 20 units are busy. -/
theorem step_ready_or_toWait_lt (hs : s.Inv) (h : sparseLookup s.pending u = some p) (hx : step s = .next t) :
    t.busy u = false ∨ ∃ q, sparseLookup t.pending u = some q ∧ t.toWait q.wait < s.toWait p.wait := by
  cases hdue : s.due with
  | some v =>
    rw [step_eq_complete hdue] at hx
    cases hx
    by_cases huv : u = v
    · subst huv
      exact .inl (busy_complete_same s u)
    · obtain ⟨q, hq⟩ := due_eq_some hdue
      exact .inr ⟨p, (lookup_complete_other s huv).trans h, Nat.add_lt_add_left (length_complete_lt hq) _⟩
  | none =>
    have hlook : sparseLookup t.pending u = some ⟨p.op, p.block, p.wait - 1⟩ := by
      rcases step_next_of_due_none hdue hx with rfl | ⟨i, hi⟩
      · rw [State.operate_pending]
        exact lookup_tick h
      · exact lookup_exec hi (lookup_tick h)
    have hbusy : t.pending.length ≤ 20 := (stepKeepsInvariant s t hs hx).units.length_le
    have hwait : 0 < p.wait := wait_pos_of_due_none hdue h
    have hself : 0 < s.pending.length := List.length_pos_of_mem (sparseLookup_mem h)
    refine .inr ⟨_, hlook, ?_⟩
    simp only [State.toWait]
    omega

/-- A busy unit is ready within the steps that there are to wait, unless every such run meets a fault. -/
theorem exists_ready_or_stopped (hs : s.Inv) (h : sparseLookup s.pending u = some p) (hn : s.toWait p.wait < n) :
    ∃ k, k ≤ n ∧ ((∃ t, runsTo k s t ∧ t.busy u = false) ∨ ∀ t, ¬ runsTo k s t) := by
  induction n generalizing s p with
  | zero => exact absurd hn (Nat.not_lt_zero _)
  | succ n ih =>
    by_cases hstep : ∃ t, step s = .next t
    · obtain ⟨t, ht⟩ := hstep
      rcases step_ready_or_toWait_lt hs h ht with hready | ⟨q, hq, hlt⟩
      · exact ⟨1, by omega, .inl ⟨t, runsTo_succ.2 ⟨t, ht, runsTo_zero.2 rfl⟩, hready⟩⟩
      · obtain ⟨k, hk, hrun⟩ := ih (stepKeepsInvariant s t hs ht) hq (by omega)
        refine ⟨k + 1, by omega, hrun.imp (fun ⟨r, hr, hready⟩ => ⟨r, runsTo_succ.2 ⟨t, ht, hr⟩, hready⟩) fun hstop r hr => ?_⟩
        obtain ⟨t', ht', hr'⟩ := runsTo_succ.1 hr
        obtain rfl : t' = t := Host.Outcome.next.inj (ht'.symm.trans ht)
        exact hstop r hr'
    · refine ⟨1, by omega, .inr fun r hr => ?_⟩
      obtain ⟨t, ht, -⟩ := runsTo_succ.1 hr
      exact hstep ⟨t, ht⟩

end Sys2Proof.Machine

section

open Sys2Proof Sys2Proof.Machine

/-- Settles O58: what there is to wait is at most `21 * wait + 20`, since at most 20 units are busy. -/
theorem busyUnitBecomesReady : Obligations.BusyUnitBecomesReady := by
  intro s u p hs h
  have hbusy : s.pending.length ≤ 20 := hs.units.length_le
  exact exists_ready_or_stopped hs h (by simp only [State.toWait]; omega)

/-- Settles O11: a hazard that is reported is an owned cell (`hazard_some`), and an owned cell overlaps a block (`hazard_none`). -/
theorem hazardMeansOwned : Obligations.HazardMeansOwned := by
  intro s changing lo n hn
  have hsome : ∀ c u, s.hazard changing lo n = some (c, u) → lo ≤ c ∧ c < lo + n ∧ s.ownedBy changing c u := by
    intro c u h
    rcases hazard_some h with ⟨howned, hlo, hhi⟩ | h0 | h0
    · exact ⟨hlo, hhi, howned⟩
    · exact absurd h0 hn.ne'
    · exact absurd h0 (unitSize_pos u).ne'
  refine ⟨⟨?_, fun hfree => ?_⟩, hsome⟩
  · rintro hnone c u hlo hhi ⟨p, start, hmem, howns, hstart, hend⟩
    have hdisjoint : lo + n ≤ start ∨ start + unitSize u ≤ lo := hazard_none.1 hnone _ hmem start howns
    omega
  · by_contra hne
    obtain ⟨⟨c, u⟩, h⟩ := Option.ne_none_iff_exists'.1 hne
    obtain ⟨hlo, hhi, howned⟩ := hsome c u h
    exact hfree c u hlo hhi howned

/-- Settles O47: with the checks passed IN starts its operation. -/
theorem inputStarts : Obligations.InputStarts := by
  intro a u lo words media s hblock hu hdir hready hfree hinput
  exact exists_started (execInp_next.2 ⟨lo, hblock, hu, hdir, .inr ⟨hready, hfree, words, media, hinput, rfl⟩⟩)

/-- Settles O48: with the checks passed OUT starts its operation, and the medium is what it sent the block to. -/
theorem outputStarts : Obligations.OutputStarts := by
  intro a u lo s hblock hu hdir hready hfree
  obtain ⟨t, p, hx, ht, hunit⟩ :=
    exists_started (i := .out a u) (execOut_next.2 ⟨lo, hblock, hu, hdir, .inr ⟨hready, hfree, rfl⟩⟩)
  have hmedia := congrArg State.media ht
  exact ⟨t, p, hx, hmedia ▸ ht, hmedia, hunit⟩

/-- Settles O49: a tape and a disk read what was last written (`Media.tape_setTape_same`, `Media.diskBlock_setDiskBlock_same`), and the
record written stands where the head was (`getElem?_tapeWrite`). -/
theorem wordMedia : Obligations.WordMedia := by
  refine fun m k block => ⟨fun u hu hpos => ?_, fun u hlo hhi => ?_⟩
  · rw [Media.output_tape hu, Media.tape_setTape_same]
    refine ⟨rfl, rfl, fun v hv => Media.tape_setTape_other m _ hv, Media.input_tape_none hu ?_,
      _, Media.input_tape_some hu ?_, ?_⟩
    · rw [Media.tape_setTape_same]
      exact (length_tapeWrite hpos block).le
    · rw [Media.tape_setTape_same]
      exact getElem?_tapeWrite hpos block
    · rw [Media.tape_setTape_same, Media.tape_setTape_same]
      rfl
  · rw [Media.output_disk hlo hhi, Media.input_disk hlo hhi, Media.diskBlock_setDiskBlock_same]
    exact ⟨rfl, fun v j h => Media.diskBlock_setDiskBlock_other m block h⟩

/-- Settles O50: characters and bytes are paired by `byteAt_of_getElem?_blockOfChars` for what is read, by `getD_charsOfBlock` for what
is sent. -/
theorem characterMedia : Obligations.CharacterMedia := by
  refine ⟨fun m k card h => ?_, fun m k block h => ?_, fun m k words => ?_⟩
  · exact ⟨_, Media.input_cards h, length_blockOfChars 16 card, fun i w hw =>
      ⟨sign_of_mem_blockOfChars (List.mem_of_getElem? hw), fun j => byteAt_of_getElem?_blockOfChars hw⟩⟩
  · exact ⟨_, Media.input_paperTape h, length_blockOfChars 14 block, fun i w hw =>
      ⟨sign_of_mem_blockOfChars (List.mem_of_getElem? hw), fun j => byteAt_of_getElem?_blockOfChars hw⟩⟩
  · exact ⟨charsOfBlock words, length_charsOfBlock words, fun i w hw j => getD_charsOfBlock hw, rfl, rfl, rfl⟩

/-- Settles O51: the control operation of the unit gives the medium (`controlMedia_eq_some`), and IOC starts. -/
theorem controlOperations : Obligations.ControlOperations := by
  intro a u s media ha hu hready hmedia
  exact exists_started (execIoc_next.2 ⟨ha, hu, .inr ⟨hready, media, controlMedia_eq_some hmedia, rfl⟩⟩)

/-- Settles O52: with the checks passed both are a choice on whether the unit is busy. -/
theorem unitJumps : Obligations.UnitJumps := by
  intro a u c s hc hu
  have hjred : exec (.jred a u) s = .next (if !s.busy u then s.jumpTo c else s.advance) := jumpOnUnit_pass hu hc
  have hjbus : exec (.jbus a u) s = .next (if s.busy u then s.jumpTo c else s.advance) := jumpOnUnit_pass hu hc
  rw [hjred, hjbus]
  cases s.busy u with
  | true | false => exact ⟨rfl, rfl⟩

/-- Settles O53: the check on the unit comes right after M (`exec_eq_withUnit`), then that on the direction. -/
theorem unitChecks : Obligations.UnitChecks := by
  intro i a u s hi ha
  obtain ⟨k, hk⟩ := exec_eq_withUnit hi ha
  refine ⟨fun hu => hk.trans (withUnit_invalid hu k), fun hu hinst => hk.trans (withUnit_absent hu hinst k), ?_, ?_⟩
  · rintro hu rfl hout
    exact (exec_inp_pass hu ha).trans (withDirection_fault (by rcases hout with rfl | rfl <;> rfl) _)
  · rintro hu rfl rfl
    exact (exec_out_pass hu ha).trans (withDirection_fault rfl _)

/-- Settles O54: the checks stand in this order after those on the unit (`Transfers.exec_eq`). -/
theorem transferChecks : Obligations.TransferChecks := by
  intro i changing a u s hu ha hi
  obtain ⟨k, hk⟩ := Transfers.exec_eq hi hu ha
  rw [hk]
  refine ⟨fun hbad => withBlock_fault hbad _, fun lo hm hfits => ?_⟩
  rw [hm, withBlock_pass hfits]
  refine ⟨fun hbusy => whenReady_hold hbusy _, fun hready howned => ?_⟩
  rw [whenReady_pass hready]
  exact withoutHazard_exists_fault howned _

/-- Settles O55: IOC stops in `withControl`, IN in `withInput`, where the medium has nothing to give. -/
theorem deviceFaults : Obligations.DeviceFaults := by
  intro a u s hu ha
  rw [exec_ioc_pass hu ha]
  refine ⟨fun hbusy => whenReady_hold hbusy _, fun hready hundef => ?_, fun hready htape hm hpast => ?_,
    fun lo hm hfits hready hfree => ⟨fun htape hend => ?_, ?_, ?_⟩⟩
  · rw [whenReady_pass hready, withControl_undefined hundef]
  · rw [whenReady_pass hready, withControl_pastRecords htape hm hpast]
  · rw [exec_inp_ready hu ⟨ha, hm, hfits⟩ (by simp only [canInput, Bool.or_eq_true, decide_eq_true_eq]; omega) hready hfree,
      withInput_tapeImproper htape (Media.input_tape_none htape hend)]
  · rintro rfl hend
    rw [exec_inp_ready hu ⟨ha, hm, hfits⟩ rfl hready hfree, withInput_exhausted (by decide) (Media.input_cards_none hend)]
  · rintro rfl hend
    rw [exec_inp_ready hu ⟨ha, hm, hfits⟩ rfl hready hfree, withInput_exhausted (by decide) (Media.input_paperTape_none hend)]

/-- Settles O56: completing is one update of the memory and of the busy units (`State.complete_eq`), and only an IN has words to
write. -/
theorem completeDelivers : Obligations.CompleteDelivers := by
  intro s u p hp
  refine ⟨busy_complete_same s u, fun v hv => lookup_complete_other s hv, ?_, fun start words hop => ?_, fun hop n => ?_⟩
  · rw [State.complete_eq hp]
    rfl
  · have hmem : (s.complete u).mem = s.mem.writeBlock start words := by
      rw [State.complete_eq hp, hop]
      rfl
    simp only [State.cell, hmem]
    refine ⟨fun k w hw => ?_, fun n hn => Memory.read_writeBlock_other s.mem start words hn⟩
    obtain ⟨hk, rfl⟩ := List.getElem?_eq_some_iff.1 hw
    exact Memory.read_writeBlock_inside s.mem start words hk
  · rw [State.complete_eq hp]
    cases hcase : p.op with
    | input start words => exact absurd hcase (hop start words)
    | output start => rfl
    | control => rfl

end

/-! ### Conversion and the order of the ends (O44 to O46, O57, O59)

NUM and CHAR act on the ten bytes of rA and rX: NUM reads them as decimal digits, a list of bytes of byte size ten
(`digitsValue_eq_bytesValue`), and CHAR writes the digits of a number (`digitsValue_digitCodes`). Two operations in progress deliver
into blocks that share no cell, so that the order of their ends does not matter (`deliver_comm`). -/

namespace Sys2Proof.Machine

variable {s : State} {b d n u v : Nat}

/-! #### Numbers in decimal digits -/

theorem bytesValue_singleton (b x : Nat) : bytesValue b [x] = x := Nat.ofDigits_singleton

/-- The number of a list of bytes as a sum, the byte of index `j` counted from the left-hand end. -/
theorem bytesValue_eq_sum (b : Nat) (l : List Nat) :
    bytesValue b l = ∑ j ∈ Finset.range l.length, l.getD j 0 * b ^ (l.length - 1 - j) := by
  induction l using List.reverseRecOn with
  | nil => rfl
  | append_singleton l x ih =>
    rw [bytesValue_append, List.length_append, List.length_singleton, Finset.sum_range_succ, ih, bytesValue_singleton, pow_one,
      Finset.sum_mul]
    congr 1
    · refine Finset.sum_congr rfl fun j hj => ?_
      have hj : j < l.length := Finset.mem_range.1 hj
      rw [List.getD_append _ _ _ _ hj, Nat.mul_assoc, ← pow_succ]
      congr 2
      omega
    · rw [List.getD_append_right _ _ _ _ le_rfl, Nat.sub_self, Nat.add_sub_cancel, Nat.sub_self, pow_zero, Nat.mul_one]
      rfl

/-- The character codes that NUM reads are the bytes of a number of byte size ten. -/
theorem digitsValue_eq_bytesValue (l : List Nat) : digitsValue l = bytesValue 10 (l.map (· % 10)) := by
  induction l using List.reverseRecOn with
  | nil => rfl
  | append_singleton l x ih =>
    have hfold : digitsValue (l ++ [x]) = 10 * digitsValue l + x % 10 := List.foldl_append
    rw [hfold, ih, List.map_append, bytesValue_append, List.map_singleton, bytesValue_singleton,
      List.length_singleton, pow_one, Nat.mul_comm]

theorem digitsValue_eq_sum (l : List Nat) :
    digitsValue l = ∑ j ∈ Finset.range l.length, l.getD j 0 % 10 * 10 ^ (l.length - 1 - j) := by
  rw [digitsValue_eq_bytesValue, bytesValue_eq_sum, List.length_map]
  exact Finset.sum_congr rfl fun j _ => congrArg (· * _) (List.getD_map l 0 (· % 10))

theorem digitsValue_cons (x : Nat) (l : List Nat) : digitsValue (x :: l) = x % 10 * 10 ^ l.length + digitsValue l := by
  rw [digitsValue_eq_bytesValue, digitsValue_eq_bytesValue, List.map_cons, ← List.singleton_append, bytesValue_append,
    bytesValue_singleton, List.length_map]

/-- The codes of the `k` lowest decimal digits of a number denote it modulo the `k`-th power of ten: the code of the digit 0 is a multiple
of ten (48_conversion.md R391). -/
theorem digitsValue_codes (hd : d % 10 = 0) (n k : Nat) :
    digitsValue ((List.range k).reverse.map fun j => d + n / 10 ^ j % 10) = n % 10 ^ k := by
  induction k with
  | zero => exact (Nat.mod_one n).symm
  | succ k ih =>
    have hdigit : (d + n / 10 ^ k % 10) % 10 = n / 10 ^ k % 10 := by omega
    rw [List.range_succ, List.reverse_append, List.reverse_singleton, List.singleton_append, List.map_cons, digitsValue_cons, ih,
      hdigit, List.length_map, List.length_reverse, List.length_range, Nat.mod_pow_succ]
    ring

theorem digitsValue_digitCodes (hd : d % 10 = 0) (hn : n < 10 ^ 10) : digitsValue (digitCodes d n) = n :=
  (digitsValue_codes hd n 10).trans (Nat.mod_eq_of_lt hn)

theorem getD_digitCodes (d n : Nat) {j : Nat} (hj : j < 10) : (digitCodes d n).getD j 0 = d + n / 10 ^ (9 - j) % 10 := by
  interval_cases j <;> rfl

/-! #### NUM and CHAR on the registers -/

theorem exec_num (a : Addr) (s : State) : exec (.num a) s = .next (toNumeric s).advance := rfl

theorem exec_char (a : Addr) (s : State) : exec (.char a) s = .next (toChars s).advance := rfl

/-- NUM of a number that fits a word (48_conversion.md R390). -/
theorem toNumeric_of_lt (h : digitsValue s.bytesAX < s.b ^ 5) :
    toNumeric s = s.setA (wordOfMag s.b s.rA.sign (digitsValue s.bytesAX)) := by
  rw [← Nat.mod_eq_of_lt h]
  exact if_pos h

theorem toNumeric_rA (s : State) : (toNumeric s).rA = wordOfMag s.b s.rA.sign (digitsValue s.bytesAX % s.b ^ 5) := by
  by_cases h : digitsValue s.bytesAX < s.b ^ 5
  · rw [toNumeric_of_lt h, Nat.mod_eq_of_lt h, State.setA_rA]
  · exact congrArg State.rA (if_neg h)

/-- CHAR puts the codes in the place of the ten bytes, as a shift puts the shifted bytes there. -/
theorem toChars_eq_shiftAX (s : State) : toChars s = shiftAX (fun _ => digitCodes s.params.digit0 (wordMag s.b s.rA)) s := rfl

theorem bytesAX_toChars (s : State) : (toChars s).bytesAX = digitCodes s.params.digit0 (wordMag s.b s.rA) := by
  rw [toChars_eq_shiftAX]
  exact bytesAX_shiftAX rfl

/-- Every magnitude has at most ten decimal digits: the byte size is at most 100 (00_scope.md R4). -/
theorem wordMag_lt_ten_pow {w : Word} (hb : b ≤ 100) (hw : wordOk b w) : wordMag b w < 10 ^ 10 :=
  calc wordMag b w < b ^ 5 := wordOk_mag_lt hw
    _ ≤ 100 ^ 5 := Nat.pow_le_pow_left hb 5
    _ = 10 ^ 10 := by norm_num

/-! #### Transfers that end in either order -/

/-- What a cell holds after a block is written depends on no other cell. -/
theorem Memory.read_writeBlock_congr {m m' : Memory} {k : Nat} (h : m.read k = m'.read k) (lo : Nat) (l : List Word) :
    (m.writeBlock lo l).read k = (m'.writeBlock lo l).read k := by
  by_cases hk : k < lo ∨ lo + l.length ≤ k
  · rw [Memory.read_writeBlock_other m lo l hk, Memory.read_writeBlock_other m' lo l hk, h]
  · obtain ⟨j, rfl⟩ := Nat.exists_eq_add_of_le (Nat.le_of_not_lt fun hlt => hk (.inl hlt))
    have hj : j < l.length := by omega
    rw [Memory.read_writeBlock_inside m lo l hj, Memory.read_writeBlock_inside m' lo l hj]

/-- In a cell outside one of two blocks it does not matter which block is written first. -/
theorem Memory.read_writeBlock_swap (m : Memory) {lo k : Nat} {l : List Word} (hk : k < lo ∨ lo + l.length ≤ k) (lo' : Nat)
    (l' : List Word) : ((m.writeBlock lo' l').writeBlock lo l).read k = ((m.writeBlock lo l).writeBlock lo' l').read k := by
  rw [Memory.read_writeBlock_other _ lo l hk]
  exact Memory.read_writeBlock_congr (Memory.read_writeBlock_other m lo l hk).symm lo' l'

/-- Two operations with blocks apart deliver the same in either order (70_reset_and_hazards.md R434). -/
theorem deliver_comm {m : Memory} (hm : memoryOk b m) {p q : Pending} (hp : operationOk b u p.op = true)
    (hq : operationOk b v q.op = true) (hpq : apart (u, p) (v, q) = true) :
    q.op.deliver (p.op.deliver m) = p.op.deliver (q.op.deliver m) := by
  have hwf : Memory.wf (q.op.deliver (p.op.deliver m)) := (memoryOk_deliver (memoryOk_deliver hm hp) hq).1
  have hwf' : Memory.wf (p.op.deliver (q.op.deliver m)) := (memoryOk_deliver (memoryOk_deliver hm hq) hp).1
  cases hpop : p.op with
  | output | control => rfl
  | input lo l =>
    cases hqop : q.op with
    | output | control => rfl
    | input lo' l' =>
      rw [hpop, hqop] at hwf hwf'
      obtain ⟨-, -, ⟨hlen, -⟩, -⟩ := of_decide_eq_true (hpop ▸ hp)
      obtain ⟨-, -, ⟨hlen', -⟩, -⟩ := of_decide_eq_true (hqop ▸ hq)
      have hdisjoint : lo + unitSize u ≤ lo' ∨ lo' + unitSize v ≤ lo :=
        apart_iff.1 hpq lo lo' (by rw [hpop]; rfl) (by rw [hqop]; rfl)
      refine Memory.ext_read hwf hwf' fun k => ?_
      by_cases hk : k < lo ∨ lo + l.length ≤ k
      · exact (Memory.read_writeBlock_swap m hk lo' l').symm
      · exact Memory.read_writeBlock_swap m (by omega) lo l

theorem sparseErase_comm {α : Type} (l : List (Nat × α)) (u v : Nat) :
    sparseErase (sparseErase l u) v = sparseErase (sparseErase l v) u :=
  List.filter_comm _ _ l

/-- A unit that is not busy has nothing to complete, before another unit's end and after. -/
theorem complete_comm_of_ready (h : sparseLookup s.pending u = none) (huv : u ≠ v) :
    (s.complete u).complete v = (s.complete v).complete u := by
  rw [State.complete_eq_self h, State.complete_eq_self ((lookup_complete_other s huv).trans h)]

theorem complete_comm_of_busy (hs : s.Inv) {p q : Pending} (hp : sparseLookup s.pending u = some p)
    (hq : sparseLookup s.pending v = some q) (huv : u ≠ v) : (s.complete u).complete v = (s.complete v).complete u := by
  obtain ⟨-, hunits, hpairs⟩ := hs.units
  have hpmem := sparseLookup_mem hp
  have hqmem := sparseLookup_mem hq
  obtain ⟨-, -, hpok, -⟩ := hunits _ hpmem
  obtain ⟨-, -, hqok, -⟩ := hunits _ hqmem
  have hapart : apart (u, p) (v, q) = true := (hpairs _ hpmem _ hqmem).resolve_left huv
  rw [State.complete_eq ((lookup_complete_other s huv.symm).trans hq), State.complete_eq ((lookup_complete_other s huv).trans hp),
    State.complete_eq hp, State.complete_eq hq]
  exact State.ext_fields rfl rfl rfl rfl rfl rfl rfl (deliver_comm hs.memory hpok hqok hapart) rfl rfl
    (sparseErase_comm s.pending u v) rfl rfl rfl

/-! #### The end of a run -/

theorem State.due_of_ended (h : s.ended) : s.due = none := by
  rw [State.due, h.2]
  rfl

/-- With no unit busy no wait passes. -/
theorem State.tick_of_ended (h : s.ended) : s.tick = s := by
  have hpending : s.tick.pending = s.pending := by rw [State.tick_pending, h.2, List.map_nil]
  exact State.ext_fields rfl rfl rfl rfl rfl rfl rfl rfl rfl rfl hpending rfl rfl rfl

theorem step_of_ended (h : s.ended) (hq : s.restarts = []) : step s = .next s := by
  rw [step_eq_operate (State.due_of_ended h) h.1, State.tick_of_ended h, State.operate_nil hq]

end Sys2Proof.Machine

section

open Sys2Proof Sys2Proof.Machine

/-- Settles O44: the ten bytes are read as a sum of decimal digits (`digitsValue_eq_sum`), and below the word size NUM writes rA only
(`toNumeric_of_lt`). -/
theorem numericValue : Obligations.NumericValue := by
  intro a s _
  obtain ⟨w, o, k, hframe⟩ := toNumeric_frame s
  refine ⟨_, digitsValue s.bytesAX, exec_num a s, digitsValue_eq_sum s.bytesAX, ?_, ?_, ?_, fun hov => ?_, fun hlt => ?_⟩
  · rw [hframe]
    rfl
  · rw [State.advance_rA, toNumeric_rA, wordOfMag_sign]
  · rw [State.advance_rA, toNumeric_rA, wordMag_ofMag_mod, Nat.mod_mod]
  · rw [State.advance_ov, hframe]
    exact Bool.or_eq_true_iff.2 (.inl hov)
  · rw [toNumeric_of_lt hlt]
    exact ⟨rfl, rfl⟩

/-- Settles O46: the codes that CHAR writes denote the magnitude of rA (`digitsValue_digitCodes`), which fits a word, so that NUM writes
rA with it and leaves OV. -/
theorem numericOfCharacters : Obligations.NumericOfCharacters := by
  rintro a a' s ⟨-, hb, hdigit, -⟩ hA
  have hvalue : digitsValue (toChars s).advance.bytesAX = wordMag s.b s.rA :=
    (congrArg digitsValue (bytesAX_toChars s)).trans (digitsValue_digitCodes hdigit (wordMag_lt_ten_pow hb hA))
  have hfits : digitsValue (toChars s).advance.bytesAX < s.b ^ 5 := hvalue ▸ wordOk_mag_lt hA
  refine ⟨_, _, exec_char a s, exec_num a' _, ?_, ?_⟩
  · rw [State.advance_rA, toNumeric_of_lt hfits, State.setA_rA, hvalue]
    exact wordOfMag_mag hA
  · rw [State.advance_ov, toNumeric_of_lt hfits]
    rfl

/-- Settles O45: the ten bytes after CHAR are the ten digit codes (`bytesAX_toChars`). -/
theorem characterCodes : Obligations.CharacterCodes := by
  refine fun a s => ⟨_, exec_char a s, rfl, rfl, rfl, fun j hj => ?_⟩
  change (toChars s).bytesAX.getD j 0 = _
  rw [bytesAX_toChars, getD_digitCodes _ _ hj]

/-- Settles O57: of two busy units the blocks are apart by the invariant (`complete_comm_of_busy`). -/
theorem completionOrder : Obligations.CompletionOrder := by
  intro s u v hs
  by_cases huv : u = v
  · rw [huv]
  · cases hp : sparseLookup s.pending u with
    | none => exact complete_comm_of_ready hp huv
    | some p =>
      cases hq : sparseLookup s.pending v with
      | none => exact (complete_comm_of_ready hq (Ne.symm huv)).symm
      | some q => exact complete_comm_of_busy hs hp hq huv

/-- Settles O59, by induction on the number of steps: each of them leaves the state as it is (`step_of_ended`). -/
theorem endedRunStays : Obligations.EndedRunStays := by
  intro s k hended hq
  induction k with
  | zero => exact runsTo_zero.2 rfl
  | succ k ih => exact runsTo_succ.2 ⟨s, step_of_ended hended hq, ih⟩

end
